-- ==== Sys2Proof/Word.lean ====
section
/-! DEFINITION. The words of the part: bytes of a frame, 16-bit point values and samples, 24-bit
audio zone sets. -/

namespace Sys2Proof

/-- One byte of a frame or of a table record (R2, R175). -/
abbrev Byte := BitVec 8

/-- A point value, a mask, a truth table or a CRC register (R21, R45, R3). -/
abbrev Word16 := BitVec 16

/-- A 24-bit set of audio zones: bit n is audio zone n (00_scope.md 6.6). -/
abbrev ZoneSet := BitVec 24

/-- One of the four axes, numbered 0 to 3 (00_scope.md 6.6). -/
abbrev AxisId := Fin 4

/-- A table or a numbered array held sparsely: number and record, numbers strictly rising. -/
abbrev Tab (α : Type) := List (Nat × α)

end Sys2Proof
end

