-- ==== Sys2Proof/Syntax.lean ====
section
/-! DEFINITION. The commands: one constructor per row of spec/opcode_table.json, with the operands the
row's rule needs (the table gives no fields; assumption 1 says how they were chosen). -/

namespace Sys2Proof

/-- The two link ports, and the two sides of the link (00_scope.md Table 0-3). -/
inductive Port where
  | b
  | d
  deriving DecidableEq, Repr

/-- The levels of the four local inputs of an axis as they stand, `true` for asserted (pin low, Table
0-6). -/
structure LocalInputs where
  upper : Bool := false
  lower : Bool := false
  contact : Bool := false
  driveFault : Bool := false
  deriving DecidableEq, Repr

/-- What one 1 ms update of an axis takes in (R74 stage 1): the successive levels of (ENA, ENB) since
the previous update, and the local inputs. -/
structure AxisInputs where
  encoder : List (Bool × Bool) := []
  pins : LocalInputs := {}
  deriving DecidableEq, Repr

/-- The input pins of an axis at a power-on reset: encoder channels and local inputs. -/
structure AxisPins where
  encA : Bool := false
  encB : Bool := false
  pins : LocalInputs := {}
  deriving DecidableEq, Repr

/-- A read request is served at its arrival or, when fenced, at its completion (R164). -/
inductive ReadEvent where
  | arrives (p : Port) (bytes : List Byte)
  | completes
  deriving DecidableEq, Repr

/-- The two occurrence classes (R178). -/
inductive OccurrenceClass where
  | linkErrors
  | programError
  deriving DecidableEq, Repr

/-- The commands of the part. A frame row carries the port and the bytes received between the start
and the end mark (R1). -/
inductive Instr where
  | powerOnReset (pins : Vector AxisPins 4)
  | sample (p : Port) (bytes : List Byte)
  | voice (p : Port) (bytes : List Byte)
  | report (p : Port) (bytes : List Byte)
  | orderToBridge (p : Port) (bytes : List Byte)
  | manage (p : Port) (bytes : List Byte)
  | doorClose (p : Port) (bytes : List Byte)
  | doorOpen (p : Port) (bytes : List Byte)
  | outputOrder (p : Port) (bytes : List Byte)
  | move (p : Port) (bytes : List Byte)
  | axisGo (p : Port) (bytes : List Byte)
  | axisStop (p : Port) (bytes : List Byte)
  | axisClear (p : Port) (bytes : List Byte)
  | zoneAlert (p : Port) (bytes : List Byte)
  | zoneCloseNow (p : Port) (bytes : List Byte)
  | zoneCancel (p : Port) (bytes : List Byte)
  | zoneRelease (p : Port) (bytes : List Byte)
  | callStart (p : Port) (bytes : List Byte)
  | callEnd (p : Port) (bytes : List Byte)
  | writeEntry
  | clearEntry
  | forcePoint
  | releasePoint
  | setMode
  | clearTravel
  | restart
  | readEntry (e : ReadEvent)
  | readPoints (e : ReadEvent)
  | readStatus (e : ReadEvent)
  | dPortFrameSent
  | bPortFrameSent
  | errorWindowEnd
  | axisUpdate (a : AxisId) (inputs : AxisInputs)
  | tick10Ms
  | staleLimit
  | voiceTick
  | chimeEnd (number : Nat)
  | sourceLost (number : Nat)
  | bridgeSilence
  | stationSilence (station : Nat)
  | holdExpired
  | closeLimitExpiry (door : Nat)
  | alertTimerExpiry (zone : Nat)
  | recloseTimerExpiry (zone : Nat)
  | awaitLimit (zone : Nat)
  | pause10Expiry (zone : Nat)
  | pause100Expiry (zone : Nat)
  | callDurationExpiry (number : Nat)
  | occurrenceTimerExpiry (c : OccurrenceClass)
  | holdRelease
  | awaitDoorsClosed (zone : Nat)
  | programStepReoffer (zone : Nat)
  | partnerAnnouncement (a : AxisId)
  | tick100Ms
  | unknownOrderToPart (p : Port) (bytes : List Byte)
  deriving DecidableEq, Repr

end Sys2Proof
end

