-- ==== Sys2Proof/Decode.lean ====
section
/-! DEFINITION. The commands that a word spells. No row of the opcode table has bits (every row's
fields are empty): a command is a frame's bytes, a tick or an event, and no word spells one. -/

namespace Sys2Proof

/-- The command whose bits are `w`; no row has bits, so none. -/
def decodeTableWord (nbits w : Nat) : Option Instr := match nbits, w with
  | _, _ => none

end Sys2Proof
end

