-- ==== Sys2Proof/Config.lean ====
section
/-! DEFINITION. What the part fixes: the capacities of its queues, the numbering of its points, the
power-on settings, the fixed tone patterns, and the one value the manual leaves open. -/

namespace Sys2Proof.Config

/-- R13. -/
def safetyCap : Nat := 8
/-- R14. -/
def voiceCap : Nat := 4
/-- R12. -/
def forwardCap : Nat := 16
/-- R16. -/
def dToBCap : Nat := 16
/-- R172. -/
def reportCap : Nat := 32
/-- R164. -/
def manageCap : Nat := 16
/-- R54. -/
def holdCap : Nat := 8
/-- R150. -/
def callCap : Nat := 16
/-- R66: moves waiting behind the current one. -/
def pendingCap : Nat := 2

/-- The last point (R21). -/
def lastPoint : Nat := 698

/-- Point `512 + 8a + k` of axis a (R33). -/
def axisPoint (a k : Nat) : Nat := 512 + 8 * a + k
/-- The door state point (Table 0-5). -/
def doorPoint (d : Nat) : Nat := 544 + d
/-- The zone state point (Table 0-5). -/
def zonePoint (z : Nat) : Nat := 640 + z
/-- The zone gate point (Table 0-5). -/
def gatePoint (z : Nat) : Nat := 656 + z
/-- The ownership point of an audio zone (Table 0-5). -/
def ownerPoint (n : Nat) : Nat := 672 + n
/-- The mode point (Table 0-5). -/
def modePoint : Nat := 696
/-- The bridge link point (Table 0-5). -/
def bridgePoint : Nat := 697
/-- The fault class point (Table 0-5). -/
def faultPoint : Nat := 698

/-- R65: the ends of the range of CP and FP. -/
def posMin : Int := -8388608
/-- R65. -/
def posMax : Int := 8388607
/-- FREE VALUE (assumption 16): the shift that scales a positive position of an axis without a record.
R33 divides by 2 to the power of "the axis's point scale" (0-15), a field of the record such an axis
does not have. -/
opaque absentScale : Int → Fin 16

/-- R65: FE saturates here. -/
def feMax : Int := 32767
/-- R178: the ticks an occurrence class stays active. -/
def occurrenceTicks : Nat := 100
/-- R155: blocks of the chime. -/
def chimeBlocks : Nat := 400

/-- How many change events one command takes; what is left over stays in `State.events` and is taken
first by the next command. DESIGN CHOICE (assumption 4). -/
def eventFuel : Nat := 1024

/-- R41 and R44 follow parents at most this far: there are 16 zones (R123). -/
def zoneFuel : Nat := 17

/-- Table 8-6: the half-period, in samples, of tones A and B of a pattern; `none` is silence. -/
def tonePair : Nat → Option Nat × Option Nat
  | 0 => (some 5, some 8)
  | 1 => (some 5, none)
  | 2 => (some 4, some 8)
  | 3 => (some 2, none)
  | 4 => (some 4, none)
  | 5 => (some 2, some 4)
  | 6 => (some 10, none)
  | _ => (some 4, some 4)

/-- Table 8-6: whether step i (0-15) of a pattern's cadence selects tone A; bit i of the word. -/
def cadence : Nat → Word16
  | 0 => 0x00FF
  | 1 => 0x3FFF
  | 2 => 0x5555
  | 3 => 0x3333
  | 4 => 0x0707
  | 5 => 0x0033
  | 6 => 0x00FF
  | _ => 0xFFFF

end Sys2Proof.Config
end

