-- ==== Sys2Proof/Machine/Records.lean ====
section
/-! DEFINITION. The types of what the part keeps: frames, points, table records, queue entries and
reports, each in the words of its rule. -/

namespace Sys2Proof.Machine

open Sys2Proof

/-! ## Frames (Chapter 1) -/

/-- Table 1-1: the frame kinds. -/
inductive Kind where
  | order
  | sample
  | voice
  | manage
  | report
  deriving DecidableEq, Repr

/-- A frame: header fields and payload. The length byte and the CRC are functions of these (R2, R10). -/
structure Frame where
  kind : Kind
  cls : BitVec 4 := 0
  dest : BitVec 6
  src : BitVec 6
  flags : BitVec 4 := 0
  payload : List Byte
  deriving DecidableEq, Repr

/-- The turn of the B-port transmitter (R15). -/
inductive Turn where
  | report
  | forward
  deriving DecidableEq, Repr

/-- R17. -/
inductive BridgeState where
  | awaiting
  | heard
  | silent
  deriving DecidableEq, Repr

/-- R19: the fields of a valid Station Table entry. `limit` is in 100 ms units. -/
structure StationEntry where
  side : Port
  limit : Nat
  deriving DecidableEq, Repr

/-- R19. -/
inductive StationState where
  | unseen
  | online
  | silent
  deriving DecidableEq, Repr

/-- What the station monitor keeps for one station address (R19). -/
structure Station where
  entry : Option StationEntry := none
  state : StationState := .unseen
  count : Nat := 0
  lastSeq : Option Byte := none
  silenceFlag : Bool := false
  deriving DecidableEq, Repr

/-! ## Points and terms (Chapters 2 and 3) -/

/-- Table 2-1. -/
inductive Quality where
  | never
  | fresh
  | stale
  | forced
  deriving DecidableEq, Repr

/-- R21: a point record; the retention class is read from the Point Map (R21, R26). -/
structure Point where
  value : Word16 := 0
  quality : Quality := .never
  age : Nat := 0
  deriving DecidableEq, Repr

/-- R21. -/
inductive Retention where
  | keep
  | clear
  deriving DecidableEq, Repr

/-- Table 2-2: a valid Point Map entry. -/
structure MapEntry where
  station : Nat
  slot : Nat
  point : Nat
  limit : Nat
  retention : Retention
  deriving DecidableEq, Repr

/-- Table 3-5. -/
inductive Cond where
  | always
  | never
  | eq
  | ne
  | gt
  | ge
  | lt
  | le
  deriving DecidableEq, Repr

/-- R45: the stale policies FALSE, TRUE and VALUE. -/
inductive StalePolicy where
  | asFalse
  | asTrue
  | useValue
  deriving DecidableEq, Repr

/-- R48: a term; `point = none` is NONE. -/
structure Term where
  point : Option Nat
  mask : Word16
  cond : Cond
  value : Word16
  stale : StalePolicy
  deriving DecidableEq, Repr

/-- R45. -/
inductive FalseVerdict where
  | refuse
  | hold
  deriving DecidableEq, Repr

/-- Table 3-4: a valid Interlock Table entry. `none` is ANY in the selector and NONE in the mode
selector. -/
structure Rule where
  origin : Option Port
  dest : Option Nat
  code : Option Nat
  devLow : Nat
  devHigh : Nat
  t0 : Term
  t1 : Term
  t2 : Term
  t3 : Term
  tt1 : Word16
  tt0 : Word16
  selector : Option (Nat × Nat)
  verdict : FalseVerdict
  holdLimit : Nat
  notify : Bool
  deriving DecidableEq, Repr

/-- R49, R50: the index, the table used (`t1`: T1) and the FORCED-INPUT mark of an evaluation. -/
structure Evaluation where
  index : Nat
  t1 : Bool
  forced : Bool
  deriving DecidableEq, Repr

/-- R54: an entry of the hold queue. `marked` is the model's own: its re-evaluation is due. -/
structure HoldEntry where
  frame : Frame
  origin : Port
  rule : Nat
  remaining : Nat
  eval : Evaluation
  marked : Bool := false
  deriving DecidableEq, Repr

/-! ## Axes (Chapters 4 and 5) -/

/-- R64. -/
inductive AxisState where
  | disabled
  | idle
  | moving
  | stopping
  | float
  | fault
  deriving DecidableEq, Repr

/-- Table 2-4. -/
inductive Phase where
  | none
  | accel
  | cruise
  | decel
  | creep
  deriving DecidableEq, Repr

/-- R95, R96. -/
inductive FaultCause where
  | trip
  | drive
  deriving DecidableEq, Repr

/-- Table 2-5. -/
inductive MoveOutcome where
  | done
  | arrivedFast
  | stopped
  | gated
  | safe
  | bridgeSilent
  | limit
  | comparator
  | leaderStopped
  | followerFault
  | restart
  | flushed
  | landed
  | earlyContact
  | noContact
  deriving DecidableEq, Repr

/-- R83. -/
inductive HoldPolicy where
  | keep
  | flush
  deriving DecidableEq, Repr

/-- Table 5-1. -/
inductive Source where
  | cp
  | fp
  | absFe
  | travel
  deriving DecidableEq, Repr

/-- Table 5-1. -/
inductive Qualifier where
  | any
  | up
  | down
  deriving DecidableEq, Repr

/-- Table 5-1. -/
inductive CompAction where
  | none
  | report
  | slowStop
  | quickStop
  | flag
  | latch
  deriving DecidableEq, Repr

/-- R89: a comparator record. -/
structure Comparator where
  source : Source
  cond : Cond
  value : Int
  qualifier : Qualifier
  action : CompAction
  deriving DecidableEq, Repr

/-- R62, R102: the coupling of a follower. -/
structure Coupling where
  leader : AxisId
  nf : Nat
  nl : Nat
  opposite : Bool
  deriving DecidableEq, Repr

/-- Table 4-1: an enabled Axis Configuration record. -/
structure AxisCfg where
  zone : Option Nat
  low : Int
  high : Int
  vmax : Nat
  trip : Nat
  policy : HoldPolicy
  warning : Option Nat
  coupling : Option Coupling
  scale : Nat
  comps : Vector Comparator 4
  deriving DecidableEq, Repr

/-- R66: a move of the move list: Table 4-4, the tag of its order and the stored end (R68). -/
structure Move where
  tag : Byte
  relative : Bool
  land : Bool
  target : Int
  vs : Nat
  vc : Nat
  acc : Nat
  dec : Nat
  vk : Nat
  lk : Nat
  offset : Int
  dest : Int
  deriving DecidableEq, Repr

/-- R72, R73: the current move with its clamped speeds and the accumulators of the profile. -/
structure Current where
  move : Move
  vs : Nat
  vc : Nat
  vk : Nat
  dec : Nat
  start : Int
  up : Bool
  dist : Nat
  vacc : Nat
  pacc : Nat
  deriving DecidableEq, Repr

/-- R79: the outcome named when a stop was requested, and the follower that named it (R105). -/
structure NamedStop where
  outcome : MoveOutcome
  namer : Option AxisId := none
  deriving DecidableEq, Repr

/-- R102, R103: a follower's coupled run. -/
structure CoupledRun where
  tag : Byte
  up : Bool
  e : Nat
  deriving DecidableEq, Repr

/-- What one axis channel keeps (R64 to R66, R69, R74, R90, R92, R102). -/
structure Axis where
  cfg : Option AxisCfg := none
  state : AxisState := .disabled
  phase : Phase := .none
  cause : Option FaultCause := none
  cp : Int := 0
  fp : Int := 0
  fe : Int := 0
  travel : BitVec 32 := 0
  encA : Bool := false
  encB : Bool := false
  inputs : LocalInputs := {}
  current : Option Current := none
  stop : Option NamedStop := none
  pending : List Move := []
  run : Option CoupledRun := none
  latch : Bool := false
  lastOutcome : Option MoveOutcome := none
  latchCP : Int := 0
  latchFP : Int := 0
  latchCount : Nat := 0
  prev : Vector Bool 4 := #v[false, false, false, false]
  dirUp : Bool := false
  pulses : Nat := 0
  deriving DecidableEq, Repr

/-- R105: what a follower announces to its leader. -/
inductive PartnerStop where
  | slowComparator
  | quickComparator
  | endLimit
  | followerFault
  deriving DecidableEq, Repr

/-- An announcement on its way from a follower to its leader (R105). -/
structure PartnerMsg where
  target : AxisId
  sender : AxisId
  stop : PartnerStop
  deriving DecidableEq, Repr

/-! ## Doors and zones (Chapters 6 and 7) -/

/-- Table 6-1. -/
inductive DoorKind where
  | fire
  | shell
  deriving DecidableEq, Repr

/-- Table 6-1: a valid Door Table entry. -/
structure DoorCfg where
  station : Nat
  device : Nat
  closedPoint : Nat
  openPoint : Nat
  zone : Nat
  rank : Nat
  limit : Nat
  kind : DoorKind
  deriving DecidableEq, Repr

/-- Table 6-2. -/
inductive DoorState where
  | unknown
  | isOpen
  | closed
  | moving
  | closing
  | opening
  | jammed
  deriving DecidableEq, Repr

/-- Section 6.2: order in flight. -/
inductive InFlight where
  | none
  | close
  | opening
  deriving DecidableEq, Repr

/-- What the door monitor keeps for a valid door (section 6.2). -/
structure Door where
  cfg : DoorCfg
  state : DoorState := .unknown
  inFlight : InFlight := .none
  remaining : Nat := 0
  jam : Bool := false
  disagree : Bool := false
  deriving DecidableEq, Repr

/-- R146. -/
inductive RestartPolicy where
  | rerun
  | conclude
  deriving DecidableEq, Repr

/-- Table 7-1: a valid Zone Table entry. -/
structure ZoneCfg where
  parent : Option Nat
  alertTime : Nat
  alertTemplate : Option Nat
  program : Option Nat
  reclose : Nat
  policy : RestartPolicy
  trigger : Term
  deriving DecidableEq, Repr

/-- Table 7-2. -/
inductive ZoneState where
  | normal
  | alert
  | closing
  | secured
  | incomplete
  deriving DecidableEq, Repr

/-- R124: the step wait. `told`: room was announced and PROGRAM_STEP_REOFFER is due (the model's own). -/
inductive StepWait where
  | none
  | await (remaining : Nat)
  | pause10 (remaining : Nat)
  | pause100 (remaining : Nat)
  | closeFrom (door : Nat) (told : Bool)
  | order (frame : Frame) (told : Bool)
  deriving DecidableEq, Repr

/-- What is kept beside a valid Zone Table entry (R124), with the door monitor's reclose timer (R117). -/
structure Zone where
  cfg : ZoneCfg
  state : ZoneState := .normal
  trigger : Bool := false
  timer : Nat := 0
  alertCall : Option Nat := none
  cursor : Option Nat := none
  wait : StepWait := .none
  reclose : Option Nat := none
  deriving DecidableEq, Repr

/-- Table 7-6. -/
inductive ProgStep where
  | close (rank : Nat)
  | await (rank limit : Nat)
  | pause10 (n : Nat)
  | pause100 (n : Nat)
  | call (template : Nat)
  | order (station code device : Nat) (word : Word16)
  | halt
  | branch (term : Term) (target : Nat)
  | finish
  deriving DecidableEq, Repr

/-- Table 7-4, with what the report carries for ORDER and PARENT (R125). -/
inductive ZoneCause where
  | trigger
  | order (tag : Byte) (src : BitVec 6)
  | alertTime
  | parent (zone : Nat)
  | programEnd
  | doors
  | triggerInConfig
  deriving DecidableEq, Repr

/-- One change of a zone's state, on its way to its report (R125). -/
structure ZoneChange where
  zone : Nat
  prev : ZoneState
  new : ZoneState
  gate : Bool
  cause : ZoneCause
  deriving DecidableEq, Repr

/-! ## Calls (Chapter 8) -/

/-- Table 8-2. -/
inductive CallSource where
  | voice (channel : Nat)
  | tone (pattern : Nat)
  deriving DecidableEq, Repr

/-- Table 8-2: a valid Call Template Table entry. -/
structure Template where
  priority : Nat
  source : CallSource
  zones : ZoneSet
  preChime : Bool
  duration : Nat
  gain : Nat
  deriving DecidableEq, Repr

/-- R149: a valid Audio Zone Table entry. -/
structure AudioZone where
  gain : Nat
  warnings : Bool
  deriving DecidableEq, Repr

/-- R150. -/
inductive CallState where
  | waiting
  | chime
  | live
  deriving DecidableEq, Repr

/-- R150. -/
inductive ChimeStatus where
  | due
  | playing
  | finished
  deriving DecidableEq, Repr

/-- R150. -/
inductive Starter where
  | bridge (tag : Byte) (src : BitVec 6)
  | zone (z : Nat)
  | axis (a : AxisId)
  deriving DecidableEq, Repr

/-- R150: a call of the call list. -/
structure Call where
  number : Nat
  template : Nat
  priority : Nat
  source : CallSource
  base : ZoneSet
  requested : ZoneSet
  owned : ZoneSet := 0
  state : CallState := .waiting
  chime : ChimeStatus
  pos : Nat := 0
  starter : Starter
  remaining : Option Nat
  age : Nat := 0
  toneCount : Nat := 0
  block : Byte := 0
  deriving DecidableEq, Repr

/-- Table 8-7. -/
inductive EndReason where
  | ended
  | duration
  | sourceLost
  | withdrawn
  | displaced
  | restart
  deriving DecidableEq, Repr

/-- R161. -/
inductive CallEvent where
  | started
  | chime
  | live
  | waiting
  | ended (reason : EndReason)
  | refused
  deriving DecidableEq, Repr

/-- R151: the calling unit's answer to a start request. -/
inductive StartAnswer where
  | started (number : Nat)
  | notValid
  | noRoom
  deriving DecidableEq, Repr

/-! ## Modes, faults and settings (Chapter 10) -/

/-- R176. -/
inductive Mode where
  | config
  | run
  | safe
  deriving DecidableEq, Repr

/-- Table 10-3, in bit order. -/
inductive FaultClass where
  | bridgeSilent
  | stationSilent
  | linkErrors
  | axisTrip
  | axisDrive
  | doorJammed
  | doorSensor
  | programError
  deriving DecidableEq, Repr

/-- R178: what mode control keeps for one class; `count` serves level classes, `timer` occurrence
classes. -/
structure ClassState where
  active : Bool := false
  count : Nat := 0
  timer : Nat := 0
  deriving DecidableEq, Repr

/-- R179. -/
inductive Response where
  | goOn
  | safe
  deriving DecidableEq, Repr

/-- R176: the cause of a change of mode. -/
inductive ModeCause where
  | request (tag : Byte)
  | fault (c : FaultClass)
  deriving DecidableEq, Repr

/-- R178: the contributor a FAULT report names. -/
inductive Contributor where
  | none
  | station (n : Nat)
  | port (p : Port)
  | axis (a : AxisId)
  | door (d : Nat)
  | zone (z : Nat)
  deriving DecidableEq, Repr

/-- R47. -/
inductive DefaultVerdict where
  | pass
  | refuse
  deriving DecidableEq, Repr

/-- Table 10-5. `silenceLimit` is in 100 ms units, `sourceLost` in ms. -/
structure Settings where
  manager : Nat := 1
  verdict : DefaultVerdict := .refuse
  silenceLimit : Nat := 10
  errThreshold : Nat := 16
  sourceLost : Nat := 2000
  deriving DecidableEq, Repr

/-! ## Management (Chapter 9) -/

/-- Table 9-2: a decoded request. Table codes and indices are checked at completion. -/
inductive ReqBody where
  | writeEntry (table index part : Nat) (bytes : List Byte)
  | clearEntry (table index : Nat)
  | forcePoint (point : Nat) (value : Word16)
  | releasePoint (point : Nat)
  | setMode (mode : Nat)
  | clearTravel (axis : Nat)
  | restart
  | readEntry (table index part : Nat)
  | readPoints (first count : Nat)
  | readStatus (sec : Nat)
  deriving DecidableEq, Repr

/-- Table 9-1: a request with its tag and flags. -/
structure Request where
  tag : Byte
  fence : Bool
  more : Bool
  body : ReqBody
  deriving DecidableEq, Repr

/-- R167. -/
structure Staging where
  table : Nat
  index : Nat
  nextPart : Nat
  bytes : List Byte
  deriving DecidableEq, Repr

/-- Table 9-5. -/
inductive ReplyResult where
  | ok
  | busy
  | mode
  | inUse
  | range
  | invalid
  | validation (table index : Nat)
  deriving DecidableEq, Repr

/-! ## Reports (Chapters 1, 3 to 10; R171) -/

/-- R61. -/
inductive Verdict where
  | passed
  | held
  | released
  | refused
  deriving DecidableEq, Repr

/-- Table 3-6. -/
inductive SubReason where
  | range
  | queueFull
  | state
  | coupled
  | noSuch
  deriving DecidableEq, Repr

/-- Table 3-7: the reasons of a refusal that is reported. -/
inductive RefuseReason where
  | mode
  | target (sub : SubReason)
  | gated
  | default
  | rule
  | holdFull
  | holdExpired
  | ruleChanged
  | bridgeSilent
  | queueFull
  deriving DecidableEq, Repr

/-- R120. -/
inductive DoorCause where
  | proof
  | orderSeen
  | closeLimit
  deriving DecidableEq, Repr

/-- Table 7-7, with each result's further fields. -/
inductive StepResult where
  | awaitLimit (rank count lowest : Nat)
  | callSkipped (template : Nat)
  | callRefused (template : Nat)
  deriving DecidableEq, Repr

/-- R20. -/
inductive StationReason where
  | silent
  | recovered
  deriving DecidableEq, Repr

/-- The reasons of a LINK report (R4, R5, R17, R163). -/
inductive LinkReason where
  | errorWindow (p : Port) (threshold : Nat)
  | side (station : BitVec 6) (p : Port)
  | bridgeHeard
  | manageSource (station : BitVec 6) (p : Port)
  deriving DecidableEq, Repr

/-- Table 9-6: a report's code with the fields its rule lists. -/
inductive ReportBody where
  | verdict (v : Verdict) (reason : Option RefuseReason) (order : Frame) (origin : Port)
      (rule : Option Nat) (eval : Option Evaluation)
  | axis (a : AxisId) (tag : Byte) (outcome : MoveOutcome) (cp : Int)
  | axisFault (a : AxisId) (cause : FaultCause) (cp fp fe : Int) (tag : Option Byte)
  | compare (a : AxisId) (k : Nat) (action : CompAction) (source cp fp : Int) (tag : Option Byte)
      (latch : Option (Int × Int × Nat))
  | door (breach : Bool) (d : Nat) (cfg : DoorCfg) (zone : Option ZoneState) (prev new : DoorState)
      (cause : DoorCause)
  | zone (c : ZoneChange)
  | zoneStep (zone : Nat) (program : Option Nat) (step : Nat) (code : Option Nat)
      (result : StepResult)
  | call (number : Option Nat) (template priority : Nat) (starter : Starter) (event : CallEvent)
      (requested owned : ZoneSet)
  | station (reason : StationReason) (n : Nat) (side : Port)
  | link (reason : LinkReason)
  | fault (c : FaultClass) (active : Bool) (who : Contributor) (classes : Byte)
  | modeChanged (prev new : Mode) (cause : ModeCause)
  | restarted (mode : Mode) (held reports requests : Nat)
  | reply (code tag : Byte) (result : ReplyResult) (data : List Byte)
  deriving DecidableEq, Repr

/-- R171: a report in the report queue; `alarm` is its class ALARM. -/
structure Report where
  alarm : Bool
  body : ReportBody
  deriving DecidableEq, Repr

end Sys2Proof.Machine
end

