-- ==== Sys2Proof/Machine/State.lean ====
section
/-! DEFINITION. State: everything the manual gives the part, block by block, as plain data; and the
part right after power-on reset. -/

namespace Sys2Proof.Machine

open Sys2Proof

/-- No rule of the manual stops the part, so a step never ends in a fault: faults are architectural
state (fault classes, the axis state FAULT, JAMMED doors) and reports. Closed and empty. -/
inductive Fault where
  deriving DecidableEq, Repr

/-- Why a command has no outcome. -/
inductive Refusal where
  /-- Raised by a dispatch arm whose command has no meaning yet. No arm uses it. Safe. -/
  | notModelled (mnemonic : String)
  deriving DecidableEq, Repr

/-- The link ports and their queues (Chapter 1). `silenceDue` is the model's own: BRIDGE_SILENCE is
due. -/
structure Link where
  errB : Nat := 0
  errD : Nat := 0
  madeB : Bool := false
  madeD : Bool := false
  safety : List Frame := []
  voice : List Frame := []
  forward : List Frame := []
  dToB : List Frame := []
  dTx : Option Frame := none
  bTx : Option Frame := none
  turn : Turn := .report
  bridge : BridgeState := .awaiting
  silence : Nat := 0
  silenceDue : Bool := false
  deriving DecidableEq, Repr

/-- The state of the part. INVENTORY.md lists every field with its rule, width and reset value. -/
structure State where
  link : Link := {}
  stations : Tab Station := []
  points : Tab Point := []
  pointMap : Tab MapEntry := []
  events : List (List Nat) := []
  rules : Tab Rule := []
  hold : List HoldEntry := []
  axes : Vector Axis 4 := #v[{}, {}, {}, {}]
  partner : List PartnerMsg := []
  doors : Tab Door := []
  zones : Tab Zone := []
  programs : Tab (List ProgStep) := []
  templates : Tab Template := []
  audioZones : Tab AudioZone := []
  calls : List Call := []
  lastNumber : Nat := 0
  manage : List Request := []
  staging : Option Staging := none
  reports : List Report := []
  overflow : Bool := false
  rebuilding : Option (List Report) := none
  mode : Mode := .config
  classes : Vector ClassState 8 := #v[{}, {}, {}, {}, {}, {}, {}, {}]
  responses : Vector Response 8 :=
    #v[.goOn, .goOn, .goOn, .goOn, .goOn, .goOn, .goOn, .goOn]
  settings : Settings := {}
  pending : List Instr := []
  deriving DecidableEq, Repr

/-- Table 2-7: the internal points the owners write as they leave power-on reset, with the inputs not
asserted (assumption 5). -/
def State.resetPoints : Tab Point :=
  (List.range 32).map (fun k => (512 + k, { value := 0, quality := .fresh, age := 0 })) ++
  (List.range 24).map (fun n => (672 + n, { value := 7, quality := .fresh, age := 0 })) ++
  [(696, { value := 0, quality := .fresh, age := 0 }),
   (698, { value := 0, quality := .fresh, age := 0 })]

/-- The part right after power-on reset (R17, R19, R36, R54, R86, R121, R124, R162, R174, R176). -/
def State.reset : State := { points := State.resetPoints }

end Sys2Proof.Machine
end

