-- ==== Sys2Proof/Machine/Flags.lean ====
section
/-! DEFINITION. The codes the part publishes: state, phase, outcome, mode, door, zone and fault codes
(Tables 2-4 to 2-6), the axis flags point and the scaled position (R33), and the code-like views the
rules use. -/

namespace Sys2Proof.Machine

open Sys2Proof

/-- Table 2-4. -/
def AxisState.code : AxisState → Nat
  | .disabled => 0
  | .idle => 1
  | .moving => 2
  | .stopping => 3
  | .float => 4
  | .fault => 5

/-- Table 2-4. -/
def Phase.code : Phase → Nat
  | .none => 0
  | .accel => 1
  | .cruise => 2
  | .decel => 3
  | .creep => 4

/-- Table 2-5. -/
def MoveOutcome.code : MoveOutcome → Nat
  | .done => 1
  | .arrivedFast => 2
  | .stopped => 3
  | .gated => 4
  | .safe => 5
  | .bridgeSilent => 6
  | .limit => 7
  | .comparator => 8
  | .leaderStopped => 9
  | .followerFault => 10
  | .restart => 11
  | .flushed => 12
  | .landed => 13
  | .earlyContact => 14
  | .noContact => 15

/-- Table 9-8, fault cause. -/
def FaultCause.code : Option FaultCause → Nat
  | none => 0
  | some .trip => 1
  | some .drive => 2

/-- Table 2-6. -/
def DoorState.code : DoorState → Nat
  | .unknown => 0
  | .isOpen => 1
  | .closed => 2
  | .moving => 3
  | .closing => 4
  | .opening => 5
  | .jammed => 6

/-- Table 2-6. -/
def ZoneState.code : ZoneState → Nat
  | .normal => 0
  | .alert => 1
  | .closing => 2
  | .secured => 3
  | .incomplete => 4

/-- Table 2-6. -/
def Mode.code : Mode → Nat
  | .config => 0
  | .run => 1
  | .safe => 2

/-- Table 10-3: the bit of a class. -/
def FaultClass.bit : FaultClass → Fin 8
  | .bridgeSilent => 0
  | .stationSilent => 1
  | .linkErrors => 2
  | .axisTrip => 3
  | .axisDrive => 4
  | .doorJammed => 5
  | .doorSensor => 6
  | .programError => 7

/-- The classes in bit order. -/
def FaultClass.all : List FaultClass :=
  [.bridgeSilent, .stationSilent, .linkErrors, .axisTrip, .axisDrive, .doorJammed, .doorSensor,
   .programError]

/-- The fault class of an occurrence class. -/
def occurrenceFault : OccurrenceClass → FaultClass
  | .linkErrors => .linkErrors
  | .programError => .programError

/-- R134: the zone states that shut the zone's own gate. -/
def ZoneState.shuts : ZoneState → Bool
  | .closing => true
  | .secured => true
  | .incomplete => true
  | _ => false

/-- R33: the scaled form of a position. -/
def scaledPos (scale : Nat) (pos : Int) : Nat :=
  if pos ≤ 0 then 0 else min 65535 (pos.toNat / 2 ^ scale)

/-- R33: the scaled form of a position of an axis; without a record its scale is a free value
(assumption 16). -/
def Axis.scaled (x : Axis) (pos : Int) : Nat := match x.cfg with
  | some c => scaledPos c.scale pos
  | none => scaledPos (Config.absentScale pos).val pos

/-- R62: a follower is an axis whose coupling is not NONE. -/
def Axis.coupling (x : Axis) : Option Coupling := match x.cfg with
  | some c => c.coupling
  | none => none

/-- R62. -/
def Axis.isFollower (x : Axis) : Bool := x.coupling.isSome

/-- R66: moves in the list; a follower's coupled run counts as its current move (R102). -/
def Axis.depth (x : Axis) : Nat :=
  (if x.current.isSome ∨ x.run.isSome then 1 else 0) + x.pending.length

/-- R91: the flag of comparator k. -/
def Axis.compFlag (x : Axis) (k : Fin 4) : Bool := match x.cfg with
  | some c => decide (c.comps[k].action = .flag) && x.prev[k]
  | none => false

/-- R33: the flags of an axis. -/
def Axis.flags (x : Axis) : Nat :=
  (x.compFlag 0).toNat + 2 * (x.compFlag 1).toNat + 4 * (x.compFlag 2).toNat +
  8 * (x.compFlag 3).toNat + 16 * x.inputs.upper.toNat + 32 * x.inputs.lower.toNat +
  64 * x.inputs.contact.toNat + 128 * x.inputs.driveFault.toNat + 256 * x.isFollower.toNat

/-- R33: the last outcome code, 0 until a move has ended. -/
def Axis.outcomeCode (x : Axis) : Nat := match x.lastOutcome with
  | some o => o.code
  | none => 0

/-- R72: the speed of an axis's own profile, 0 without a current move. -/
def Axis.ownSpeed (x : Axis) : Nat := match x.current with
  | some c => c.vacc / 1000
  | none => 0

/-- R66, R102: the tag of the current move or coupled run. -/
def Axis.currentTag (x : Axis) : Option Byte := match x.current, x.run with
  | some c, _ => some c.move.tag
  | none, some r => some r.tag
  | none, none => none

/-- R90, R93: the direction of the current move or coupled run. -/
def Axis.direction (x : Axis) : Option Bool := match x.current, x.run with
  | some c, _ => some c.up
  | none, some r => some r.up
  | none, none => none

/-- The set of active classes, bit by bit (R178). -/
def activeSet (s : State) : Byte :=
  FaultClass.all.foldl
    (fun acc c => if s.classes[c.bit].active then acc ||| (1 <<< c.bit.val) else acc) 0

end Sys2Proof.Machine
end

