-- ==== Sys2Proof/Machine/Operands.lean ====
section
/-! DEFINITION. The operand forms of the commands: a frame read from its bytes and written to bytes
(R2, R3, R10), the view of an ORDER, a SAMPLE and a VOICE payload (Tables 1-2, 1-4, 1-5), the MOVE
arguments (Table 4-4) and the decoding of a MANAGE payload (Tables 9-1, 9-2). -/

namespace Sys2Proof.Machine

open Sys2Proof

/-! ## Bytes -/

/-- The big-endian number of a list of bytes (00_scope.md 6.1). -/
def beNat (bs : List Byte) : Nat := bs.foldl (fun n b => n * 256 + b.toNat) 0

/-- `n` bytes of a number, most significant byte first. -/
def beBytes : Nat → Nat → List Byte
  | 0, _ => []
  | n + 1, v => beBytes n (v / 256) ++ [BitVec.ofNat 8 v]

/-- The number in `len` bytes of a record from byte `off` on; missing bytes read as none. -/
def fieldAt (bs : List Byte) (off len : Nat) : Nat := beNat ((bs.drop off).take len)

/-- Two's complement of a number of `8 * n` bits (00_scope.md 6.1). -/
def toSigned (n v : Nat) : Int :=
  if v < 2 ^ (8 * n - 1) then (v : Int) else (v : Int) - ((2 ^ (8 * n) : Nat) : Int)

/-- `n` bytes of a signed number in two's complement, most significant byte first. -/
def beSigned (n : Nat) (v : Int) : List Byte := beBytes n (v % ((2 ^ (8 * n) : Nat) : Int)).toNat

/-! ## The CRC (R3) -/

/-- One bit of the CRC: polynomial 1021h, most significant bit first. -/
def crcBit (r : Word16) : Word16 := if r.msb then (r <<< 1) ^^^ 0x1021 else r <<< 1

/-- One byte of the CRC. -/
def crcByte (r : Word16) (b : Byte) : Word16 :=
  (crcBit ∘ crcBit ∘ crcBit ∘ crcBit ∘ crcBit ∘ crcBit ∘ crcBit ∘ crcBit) (r ^^^ (b.zeroExtend 16 <<< 8))

/-- The CRC over header and payload: preset FFFFh, not inverted (R3). -/
def crc16 (bs : List Byte) : Word16 := bs.foldl crcByte 0xFFFF

/-- The two CRC bytes, most significant first. -/
def crcBytes (bs : List Byte) : List Byte :=
  [(crc16 bs).extractLsb' 8 8, (crc16 bs).extractLsb' 0 8]

/-! ## Frames -/

/-- Table 1-1: the code of a kind. -/
def Kind.code : Kind → BitVec 4
  | .order => 1
  | .sample => 2
  | .voice => 3
  | .manage => 4
  | .report => 5

/-- Table 1-1: the kind of a code; `none` for a kind that is not 1-5 (R3). -/
def Kind.ofCode (c : BitVec 4) : Option Kind :=
  if c = 1 then some .order
  else if c = 2 then some .sample
  else if c = 3 then some .voice
  else if c = 4 then some .manage
  else if c = 5 then some .report
  else none

/-- Bytes 1 and 2 of the header: destination, source, flags. -/
def Frame.route (f : Frame) : Word16 := (f.dest ++ f.src ++ f.flags)

/-- Header and payload of a frame (Table 1-1). -/
def Frame.body (f : Frame) : List Byte :=
  (f.kind.code ++ f.cls : BitVec 8) :: f.route.extractLsb' 8 8 :: f.route.extractLsb' 0 8 ::
    BitVec.ofNat 8 f.payload.length :: f.payload

/-- The frame as it is sent: header, payload, CRC computed afresh (R10). -/
def Frame.bytes (f : Frame) : List Byte := f.body ++ crcBytes f.body

/-- R3, payload form: whether the payload fits its kind. -/
def payloadFits (k : Kind) (payload : List Byte) : Bool :=
  match k with
  | .order => 4 ≤ payload.length && fieldAt payload 3 1 ≤ 24 &&
      payload.length == 4 + fieldAt payload 3 1
  | .sample => 2 ≤ payload.length && 1 ≤ fieldAt payload 1 1 && fieldAt payload 1 1 ≤ 24 &&
      payload.length == 2 + 3 * fieldAt payload 1 1
  | .voice => payload.length == 69 && fieldAt payload 0 1 ≤ 7
  | .manage => true
  | .report => true

/-- R3: the frame that the received bytes spell, `none` when any check fails (malformed). -/
def parseFrame (bytes : List Byte) : Option Frame :=
  match bytes with
  | b0 :: b1 :: b2 :: b3 :: rest =>
    let n := b3.toNat
    let payload := rest.take n
    let route : Word16 := b1 ++ b2
    let src : BitVec 6 := route.extractLsb' 4 6
    if 80 < n then none
    else if rest.length ≠ n + 2 then none
    else if rest.drop n ≠ crcBytes (b0 :: b1 :: b2 :: b3 :: payload) then none
    else if src = 0 ∨ src = 63 then none
    else match Kind.ofCode (b0.extractLsb' 4 4) with
      | none => none
      | some k =>
        if payloadFits k payload then
          some { kind := k, cls := b0.extractLsb' 0 4, dest := route.extractLsb' 10 6, src := src,
                 flags := route.extractLsb' 0 4, payload := payload }
        else none
  | _ => none

/-! ## Views of a payload -/

/-- Table 1-2, byte 0. -/
def Frame.code (f : Frame) : Nat := fieldAt f.payload 0 1
/-- Table 1-2, byte 1. -/
def Frame.device (f : Frame) : Nat := fieldAt f.payload 1 1
/-- Table 1-2, byte 2. -/
def Frame.tag (f : Frame) : Byte := f.payload.getD 2 0
/-- Table 1-2, bytes 4 on. -/
def Frame.args (f : Frame) : List Byte := f.payload.drop 4

/-- An ORDER frame the part originates (R10). -/
def orderFrame (dest : Nat) (code device : Nat) (args : List Byte) : Frame :=
  { kind := .order, dest := BitVec.ofNat 6 dest, src := 0
    payload := [BitVec.ofNat 8 code, BitVec.ofNat 8 device, 0, BitVec.ofNat 8 args.length] ++ args }

/-- Table 1-4: the station sequence of a SAMPLE. -/
def Frame.sequence (f : Frame) : Byte := f.payload.getD 0 0

/-- Triples of bytes as (slot, value) pairs. -/
def slotPairs : List Byte → List (Nat × Word16)
  | s :: hi :: lo :: rest => (s.toNat, hi ++ lo) :: slotPairs rest
  | _ => []

/-- Table 1-4: the pairs of a SAMPLE, in their order. -/
def Frame.pairs (f : Frame) : List (Nat × Word16) := slotPairs (f.payload.drop 2)

/-- Table 1-5: the channel of a VOICE frame. -/
def Frame.channel (f : Frame) : Nat := fieldAt f.payload 0 1

/-- Pairs of bytes as 16-bit words. -/
def words16 : List Byte → List Word16
  | hi :: lo :: rest => (hi ++ lo) :: words16 rest
  | _ => []

/-- Table 1-5: the 32 samples of a VOICE frame. -/
def Frame.samples (f : Frame) : List Word16 := words16 (f.payload.drop 5)

/-! ## The rows of frame commands -/

/-- The frame rows of the opcode table. -/
inductive FrameRow where
  | sample
  | voice
  | report
  | orderToBridge
  | manage
  | doorClose
  | doorOpen
  | outputOrder
  | move
  | axisGo
  | axisStop
  | axisClear
  | zoneAlert
  | zoneCloseNow
  | zoneCancel
  | zoneRelease
  | callStart
  | callEnd
  | unknownOrder
  deriving DecidableEq, Repr

/-- Table 3-2: the row of an order addressed to the part. -/
def partRow (code : Nat) : FrameRow :=
  if code = 0x20 then .move
  else if code = 0x21 then .axisGo
  else if code = 0x22 then .axisStop
  else if code = 0x23 then .axisClear
  else if code = 0x30 then .zoneAlert
  else if code = 0x31 then .zoneCloseNow
  else if code = 0x32 then .zoneCancel
  else if code = 0x33 then .zoneRelease
  else if code = 0x40 then .callStart
  else if code = 0x41 then .callEnd
  else .unknownOrder

/-- Table 3-1: the row of an order addressed to a station. -/
def stationRow (code : Nat) : FrameRow :=
  if code = 0x10 then .doorClose else if code = 0x11 then .doorOpen else .outputOrder

/-- The row that a valid frame arriving at a port belongs to: by kind, and for an ORDER by
destination, port and code (Table 1-6, Tables 3-1 and 3-2). -/
def rowOf (p : Port) (f : Frame) : FrameRow :=
  match f.kind with
  | .sample => .sample
  | .voice => .voice
  | .report => .report
  | .manage => .manage
  | .order =>
    if f.dest = 0 then partRow f.code
    else match p with
      | .b => stationRow f.code
      | .d => .orderToBridge

/-! ## MOVE arguments (Table 4-4) -/

/-- Table 4-4: the move record of an argument list, `none` when its length is not 18 or a field lies
outside its values (R67 check 1). The stored end is set when the move joins the list. -/
def decodeMove (tag : Byte) (args : List Byte) : Option Move :=
  let flags : Byte := args.getD 0 0
  let m : Move :=
    { tag := tag, relative := flags.getLsbD 0, land := flags.getLsbD 1
      target := toSigned 3 (fieldAt args 1 3)
      vs := fieldAt args 4 2, vc := fieldAt args 6 2, acc := fieldAt args 8 2
      dec := fieldAt args 10 2, vk := fieldAt args 12 2, lk := fieldAt args 14 2
      offset := toSigned 2 (fieldAt args 16 2), dest := 0 }
  if args.length = 18 ∧ (1 ≤ m.vs ∧ m.vs ≤ 4000) ∧ (1 ≤ m.vc ∧ m.vc ≤ 4000) ∧ 1 ≤ m.acc ∧
      (1 ≤ m.vk ∧ m.vk ≤ 4000) ∧ (-4096 ≤ m.offset ∧ m.offset ≤ 4095)
  then some m else none

/-! ## MANAGE payloads (Tables 9-1 and 9-2) -/

/-- What the management unit reads from an accepted payload (R163). -/
inductive ManageRead where
  | short
  | unknown (code tag : Byte)
  | badLength (code tag : Byte)
  | request (r : Request)
  deriving DecidableEq, Repr

/-- Table 9-2: the body of a request code with its operands, `none` when the operand length is not
the one the table gives. Only for codes 1-10. -/
def decodeBody (code : Nat) (ops : List Byte) : Option ReqBody :=
  let n := ops.length
  if code = 1 then
    if 5 ≤ n ∧ n ≤ 68 then
      some (.writeEntry (fieldAt ops 0 1) (fieldAt ops 1 2) (fieldAt ops 3 1) (ops.drop 4))
    else none
  else if code = 2 then
    if n = 3 then some (.clearEntry (fieldAt ops 0 1) (fieldAt ops 1 2)) else none
  else if code = 3 then
    if n = 4 then some (.forcePoint (fieldAt ops 0 2) (BitVec.ofNat 16 (fieldAt ops 2 2))) else none
  else if code = 4 then
    if n = 2 then some (.releasePoint (fieldAt ops 0 2)) else none
  else if code = 5 then
    if n = 1 then some (.setMode (fieldAt ops 0 1)) else none
  else if code = 6 then
    if n = 1 then some (.clearTravel (fieldAt ops 0 1)) else none
  else if code = 7 then
    if n = 0 then some .restart else none
  else if code = 8 then
    if n = 4 then some (.readEntry (fieldAt ops 0 1) (fieldAt ops 1 2) (fieldAt ops 3 1)) else none
  else if code = 9 then
    if n = 3 then some (.readPoints (fieldAt ops 0 2) (fieldAt ops 2 1)) else none
  else
    if n = 1 then some (.readStatus (fieldAt ops 0 1)) else none

/-- R163: an accepted frame read as one request. -/
def decodeManage (payload : List Byte) : ManageRead :=
  match payload with
  | code :: tag :: flags :: ops =>
    if code.toNat < 1 ∨ 10 < code.toNat then .unknown code tag
    else match decodeBody code.toNat ops with
      | none => .badLength code tag
      | some b => .request { tag := tag, fence := flags.getLsbD 0, more := flags.getLsbD 1, body := b }
  | _ => .short

/-- Table 9-2: the request code of a body. -/
def ReqBody.code : ReqBody → Nat
  | .writeEntry .. => 1
  | .clearEntry .. => 2
  | .forcePoint .. => 3
  | .releasePoint .. => 4
  | .setMode .. => 5
  | .clearTravel .. => 6
  | .restart => 7
  | .readEntry .. => 8
  | .readPoints .. => 9
  | .readStatus .. => 10

/-- R164: READ_ENTRY, READ_POINTS and READ_STATUS are direct requests. -/
def ReqBody.direct : ReqBody → Bool
  | .readEntry .. => true
  | .readPoints .. => true
  | .readStatus .. => true
  | _ => false

end Sys2Proof.Machine
end

