-- ==== Sys2Proof/Machine/ReportCodec.lean ====
section
/-! DEFINITION. The REPORT payloads (R175, Tables 9-6 to 9-8): report code and arguments, the fields
the making rule lists, in its order, encoded as records are. Enumerations that no table of records
lists are numbered from 0 in the order their rule lists them; an absent field is all ones, in two
bytes where FFh is a value of the field (assumption 7). -/

namespace Sys2Proof.Machine

open Sys2Proof

/-- One byte. -/
def byte1 (n : Nat) : List Byte := [BitVec.ofNat 8 n]

/-- One byte, FFh when absent. -/
def optByte (o : Option Nat) : List Byte := match o with
  | some n => byte1 n
  | none => [0xFF]

/-- Two bytes, FFFFh when absent. -/
def optWord (o : Option Nat) : List Byte := match o with
  | some n => beBytes 2 n
  | none => [0xFF, 0xFF]

/-- 1 for yes and 0 for no (R175). -/
def yesNo (b : Bool) : List Byte := byte1 b.toNat

/-- B is 0 and D is 1 (R175). -/
def portCode : Port → Nat
  | .b => 0
  | .d => 1

/-- R61, in the order listed. -/
def Verdict.code : Verdict → Nat
  | .passed => 0
  | .held => 1
  | .released => 2
  | .refused => 3

/-- Table 3-7, in the order listed. -/
def RefuseReason.code : RefuseReason → Nat
  | .mode => 0
  | .target _ => 1
  | .gated => 2
  | .default => 3
  | .rule => 4
  | .holdFull => 5
  | .holdExpired => 6
  | .ruleChanged => 7
  | .bridgeSilent => 8
  | .queueFull => 9

/-- Table 3-6, in the order listed. -/
def SubReason.code : SubReason → Nat
  | .range => 0
  | .queueFull => 1
  | .state => 2
  | .coupled => 3
  | .noSuch => 4

/-- R61: the sub-reason of a refusal. -/
def RefuseReason.sub : RefuseReason → Option SubReason
  | .target x => some x
  | _ => none

/-- Table 5-1, in the order listed. -/
def CompAction.code : CompAction → Nat
  | .none => 0
  | .report => 1
  | .slowStop => 2
  | .quickStop => 3
  | .flag => 4
  | .latch => 5

/-- Table 6-1. -/
def DoorKind.code : DoorKind → Nat
  | .fire => 0
  | .shell => 1

/-- R120. -/
def DoorCause.code : DoorCause → Nat
  | .proof => 0
  | .orderSeen => 1
  | .closeLimit => 2

/-- Table 7-4 with the further fields of R125. -/
def ZoneCause.bytes : ZoneCause → List Byte
  | .trigger => byte1 0
  | .order tag src => byte1 1 ++ [tag] ++ byte1 src.toNat
  | .alertTime => byte1 2
  | .parent z => byte1 3 ++ byte1 z
  | .programEnd => byte1 4
  | .doors => byte1 5
  | .triggerInConfig => byte1 6

/-- Table 7-7. -/
def StepResult.bytes : StepResult → List Byte
  | .awaitLimit r n d => byte1 0 ++ byte1 r ++ byte1 n ++ byte1 d
  | .callSkipped t => byte1 1 ++ byte1 t
  | .callRefused t => byte1 2 ++ byte1 t

/-- R150. -/
def Starter.bytes : Starter → List Byte
  | .bridge tag src => byte1 0 ++ [tag] ++ byte1 src.toNat
  | .zone z => byte1 1 ++ byte1 z
  | .axis a => byte1 2 ++ byte1 a.val

/-- Table 8-7, in the order listed. -/
def EndReason.code : EndReason → Nat
  | .ended => 0
  | .duration => 1
  | .sourceLost => 2
  | .withdrawn => 3
  | .displaced => 4
  | .restart => 5

/-- R161: the event and, for ENDED, its reason. -/
def CallEvent.bytes : CallEvent → List Byte
  | .started => byte1 0 ++ [0xFF]
  | .chime => byte1 1 ++ [0xFF]
  | .live => byte1 2 ++ [0xFF]
  | .waiting => byte1 3 ++ [0xFF]
  | .ended r => byte1 4 ++ byte1 r.code
  | .refused => byte1 5 ++ [0xFF]

/-- R4, R5, R17, R163. -/
def LinkReason.bytes : LinkReason → List Byte
  | .errorWindow p t => byte1 0 ++ byte1 (portCode p) ++ byte1 t
  | .side n p => byte1 1 ++ byte1 n.toNat ++ byte1 (portCode p)
  | .bridgeHeard => byte1 2
  | .manageSource n p => byte1 3 ++ byte1 n.toNat ++ byte1 (portCode p)

/-- R178: the number of the contributor. -/
def Contributor.number : Contributor → Option Nat
  | .none => Option.none
  | .station n => some n
  | .port p => some (portCode p)
  | .axis a => some a.val
  | .door d => some d
  | .zone z => some z

/-- R176: the cause of a change of mode. -/
def ModeCause.bytes : ModeCause → List Byte
  | .request tag => byte1 0 ++ [tag]
  | .fault c => byte1 1 ++ byte1 c.bit.val

/-- Table 9-8: result and, for VALIDATION, table and index. -/
def ReplyResult.bytes : ReplyResult → List Byte
  | .ok => byte1 0
  | .busy => byte1 1
  | .mode => byte1 2
  | .inUse => byte1 3
  | .range => byte1 4
  | .invalid => byte1 5
  | .validation t i => byte1 6 ++ byte1 t ++ beBytes 2 i

/-- The FAULT cause of an axis. -/
def faultCauseByte (c : FaultCause) : List Byte := byte1 (FaultCause.code (some c))

/-- Table 9-6: the report code. -/
def ReportBody.code : ReportBody → Nat
  | .verdict .. => 1
  | .axis .. => 2
  | .axisFault .. => 3
  | .compare .. => 4
  | .door breach .. => if breach then 6 else 5
  | .zone _ => 7
  | .zoneStep .. => 8
  | .call .. => 9
  | .station .. => 10
  | .link _ => 11
  | .fault .. => 12
  | .modeChanged .. => 13
  | .restarted .. => 13
  | .reply .. => 14

/-- R61: the deciding evaluation, index and table (T1 is 0, T0 is 1, in the order listed). -/
def evalBytes : Option Evaluation → List Byte
  | some e => byte1 e.index ++ byte1 (if e.t1 then 0 else 1) ++ yesNo e.forced
  | none => [0xFF, 0xFF] ++ yesNo false

/-- Table 9-7: the arguments. A COMPARE report of a LATCH action has the latch record (R92) last, after
the tag; those of other actions have nothing there (assumption 7). -/
def ReportBody.args : ReportBody → List Byte
  | .verdict v reason f o rule eval =>
    byte1 v.code ++ optByte (reason.map RefuseReason.code) ++
    optByte ((reason.bind RefuseReason.sub).map SubReason.code) ++ [f.tag] ++ byte1 f.code ++
    byte1 f.device ++ byte1 f.dest.toNat ++ byte1 f.src.toNat ++ byte1 (portCode o) ++ optWord rule ++
    evalBytes eval
  | .axis a tag o cp => byte1 a.val ++ [tag] ++ byte1 o.code ++ beSigned 3 cp
  | .axisFault a cause cp fp fe tag =>
    byte1 a.val ++ faultCauseByte cause ++ beSigned 3 cp ++ beSigned 3 fp ++ beSigned 2 fe ++
    optWord (tag.map (·.toNat))
  | .compare a k action source cp fp tag latch =>
    byte1 a.val ++ byte1 k ++ byte1 action.code ++ beSigned 4 source ++ beSigned 3 cp ++
    beSigned 3 fp ++ optWord (tag.map (·.toNat)) ++
    (match latch with
     | some (lc, lf, n) => beSigned 3 lc ++ beSigned 3 lf ++ byte1 n
     | none => [])
  | .door _ d cfg zs prev new cause =>
    byte1 d ++ byte1 cfg.kind.code ++ byte1 cfg.zone ++ optByte (zs.map ZoneState.code) ++
    byte1 cfg.station ++ byte1 cfg.device ++ byte1 prev.code ++ byte1 new.code ++ byte1 cause.code
  | .zone c =>
    byte1 c.zone ++ byte1 c.prev.code ++ byte1 c.new.code ++ yesNo c.gate ++ c.cause.bytes
  | .zoneStep z program step code result =>
    byte1 z ++ optByte program ++ byte1 step ++ optByte code ++ result.bytes
  | .call number t pr starter event requested owned =>
    optWord number ++ byte1 t ++ byte1 pr ++ starter.bytes ++ event.bytes ++
    beBytes 3 requested.toNat ++ beBytes 3 owned.toNat
  | .station reason n side =>
    byte1 (match reason with
      | .silent => 0
      | .recovered => 1) ++ byte1 n ++ byte1 (portCode side)
  | .link r => r.bytes
  | .fault c active who set =>
    byte1 c.bit.val ++ byte1 (if active then 0 else 1) ++ optByte who.number ++ [set]
  | .modeChanged prev new cause => byte1 0 ++ byte1 prev.code ++ byte1 new.code ++ cause.bytes
  | .restarted mode held reports requests =>
    byte1 1 ++ byte1 mode.code ++ byte1 held ++ byte1 reports ++ byte1 requests
  | .reply code tag result data => [code, tag] ++ result.bytes ++ data

/-- Table 9-7: report code and arguments. -/
def ReportBody.payload (b : ReportBody) : List Byte := byte1 b.code ++ b.args

end Sys2Proof.Machine
end

