-- ==== Sys2Proof/Machine/Ops.lean ====
section
/-! DEFINITION. The named operations every block uses: reading and writing tables and points (R21 to
R23, R32), the report queue and the B-port transmitter (R15, R172, R173), the D-port queues and
transmitter (R11 to R14, R16), and the evaluation of terms and rules (R48 to R50). -/

namespace Sys2Proof.Machine

open Sys2Proof

/-! ## Sparse tables -/

/-- The record of a number, `none` where the table lists none. -/
def Tab.get? {α : Type} : Tab α → Nat → Option α
  | [], _ => none
  | (k, v) :: t, n => if k = n then some v else Tab.get? t n

/-- The table with the record of one number set; numbers stay strictly rising. -/
def Tab.set {α : Type} : Tab α → Nat → α → Tab α
  | [], n, v => [(n, v)]
  | (k, w) :: t, n, v =>
    if n < k then (n, v) :: (k, w) :: t
    else if n = k then (n, v) :: t
    else (k, w) :: Tab.set t n v

/-- The table without the record of a number. -/
def Tab.erase {α : Type} (t : Tab α) (n : Nat) : Tab α := t.filter (fun e => e.1 ≠ n)

/-- The table with the record of a number changed, where it lists one. -/
def Tab.modify {α : Type} (t : Tab α) (n : Nat) (f : α → α) : Tab α :=
  t.map (fun e => if e.1 = n then (e.1, f e.2) else e)

/-- The numbers of a table, rising. -/
def Tab.keys {α : Type} (t : Tab α) : List Nat := t.map (·.1)

/-- The canonical form: numbers strictly rising. -/
def Tab.Sorted {α : Type} (t : Tab α) : Bool :=
  match t with
  | [] => true
  | (k, _) :: rest => rest.all (fun e => decide (k < e.1)) && Tab.Sorted rest

/-- The first element that meets a test, and the list without it. -/
def takeFirst {α : Type} (p : α → Bool) : List α → Option (α × List α)
  | [] => none
  | x :: xs =>
    if p x then some (x, xs)
    else match takeFirst p xs with
      | some (y, ys) => some (y, x :: ys)
      | none => none

/-- A list at the first element that meets a test: what stands before it, it, and what stands behind. -/
def splitFirst {α : Type} (p : α → Bool) : List α → Option (List α × α × List α)
  | [] => none
  | x :: xs =>
    if p x then some ([], x, xs)
    else match splitFirst p xs with
      | some (before, y, after) => some (x :: before, y, after)
      | none => none

/-! ## Points -/

/-- The record of a point; an unlisted point is NEVER with value 0 and age 0 (R36). -/
def getPoint (s : State) (n : Nat) : Point := (Tab.get? s.points n).getD {}

/-- The image with one point set; a NEVER point in its power-on form is not listed. -/
def putPoint (t : Tab Point) (n : Nat) (p : Point) : Tab Point :=
  if p = {} then Tab.erase t n else Tab.set t n p

/-- The points of a list whose value or quality differs between two images (R23). -/
def changedPoints (old new : Tab Point) (ns : List Nat) : List Nat :=
  ns.filter (fun n =>
    let a := (Tab.get? old n).getD {}
    let b := (Tab.get? new n).getD {}
    decide (a.value ≠ b.value) || decide (a.quality ≠ b.quality))

/-- R23: one cause sets the image; it makes one change event naming the points it changed, or none. -/
def setImage (new : Tab Point) (touched : List Nat) (s : State) : State :=
  let named := (changedPoints s.points new touched).dedup
  if named.isEmpty then { s with points := new }
  else { s with points := new, events := s.events ++ [named] }

/-- R32: an owner writes internal points, each only when the value differs or the point is NEVER,
with quality FRESH and age 0, as one change event. -/
def writePoints (ws : List (Nat × Nat)) (s : State) : State :=
  let due := ws.filter (fun w =>
    let p := getPoint s w.1
    decide (p.quality = .never) || decide (p.value ≠ BitVec.ofNat 16 w.2))
  setImage (due.foldl (fun t w => putPoint t w.1 ⟨BitVec.ofNat 16 w.2, .fresh, 0⟩) s.points)
    (due.map (·.1)) s

/-- R32: an owner makes its points NEVER with value 0 when their table entry is cleared. -/
def clearPoints (ns : List Nat) (s : State) : State :=
  setImage (ns.foldl (fun t n => putPoint t n {}) s.points) ns s

/-- The valid Point Map entry that targets a field point, if any (R25: at most one). -/
def mapEntryOf (s : State) (n : Nat) : Option MapEntry :=
  (s.pointMap.find? (fun e => decide (e.2.point = n))).map (·.2)

/-- R21: the retention class of a point. -/
def retentionOf (s : State) (n : Nat) : Retention := match mapEntryOf s n with
  | some m => m.retention
  | none => .clear

/-! ## Stations -/

/-- What the station monitor keeps for an address (R19). -/
def getStation (s : State) (n : Nat) : Station := (Tab.get? s.stations n).getD {}

/-- Set what is kept for an address; an empty slot is not listed. -/
def putStation (n : Nat) (x : Station) (s : State) : State :=
  { s with stations := if x = {} then Tab.erase s.stations n else Tab.set s.stations n x }

/-- R6: whether a destination is local to the side of a port: a valid entry on that side. -/
def isLocal (s : State) (p : Port) (dest : BitVec 6) : Bool :=
  match (getStation s dest.toNat).entry with
  | some e => decide (e.side = p)
  | none => false

/-! ## The report queue and the B-port transmitter -/

/-- R171: the frame of a report as the transmitter takes it. -/
def reportFrame (s : State) (r : Report) : Frame :=
  { kind := .report, cls := if r.alarm then 1 else 0
    dest := BitVec.ofNat 6 s.settings.manager, src := 0
    flags := if s.overflow then 1 else 0
    payload := r.body.payload }

/-- R15, R173: the transmitter sends a report; the overflow mark travels with it and is cleared. -/
def sendReport (r : Report) (s : State) : State :=
  { s with link := { s.link with bTx := some (reportFrame s r), turn := .forward }, overflow := false }

/-- R15: the transmitter sends a forwarded frame. -/
def sendForwarded (f : Frame) (s : State) : State :=
  { s with link := { s.link with bTx := some f, turn := .report } }

/-- The oldest report of the queue is taken. -/
def takeReport (s : State) : State := match s.reports with
  | r :: rest => sendReport r { s with reports := rest }
  | [] => s

/-- The oldest frame of the D-to-B forward queue is taken. -/
def takeForwarded (s : State) : State := match s.link.dToB with
  | f :: rest => sendForwarded f { s with link := { s.link with dToB := rest } }
  | [] => s

/-- R15: a free B-port transmitter takes the oldest ALARM report, else the queue named by the turn,
else the other queue. -/
def kickB (s : State) : State :=
  if s.link.bTx.isSome then s
  else match takeFirst (·.alarm) s.reports with
    | some (r, rest) => sendReport r { s with reports := rest }
    | none => match s.link.turn with
      | .report => if s.reports.isEmpty then takeForwarded s else takeReport s
      | .forward => if s.link.dToB.isEmpty then takeReport s else takeForwarded s

/-- R172: a report offered to the report queue joins it, displaces the oldest ROUTINE report, or is
dropped; a loss sets the overflow mark (R173). -/
def admitReport (r : Report) (s : State) : State :=
  if s.reports.length < Config.reportCap then { s with reports := s.reports ++ [r] }
  else if !r.alarm then { s with overflow := true }
  else match takeFirst (fun x => !x.alarm) s.reports with
    | some (_, rest) => { s with reports := rest ++ [r], overflow := true }
    | none => { s with overflow := true }

/-- Make a report: while the blocks rebuild at a warm restart it is held (R174), otherwise it is
offered to the queue and a free transmitter takes its next frame at once (R15). -/
def offerReport (r : Report) (s : State) : State := match s.rebuilding with
  | some held => { s with rebuilding := some (held ++ [r]) }
  | none => kickB (admitReport r s)

/-- A report of class ROUTINE. -/
def routine (b : ReportBody) (s : State) : State := offerReport ⟨false, b⟩ s

/-- A report of class ALARM. -/
def alarm (b : ReportBody) (s : State) : State := offerReport ⟨true, b⟩ s

/-- R16: a frame offered to the D-to-B forward queue. -/
def offerDToB (f : Frame) (s : State) : State :=
  if s.link.dToB.length < Config.dToBCap then
    kickB { s with link := { s.link with dToB := s.link.dToB ++ [f] } }
  else match takeFirst (fun x => decide (x.kind ≠ .order)) s.link.dToB with
    | some (_, rest) => kickB { s with link := { s.link with dToB := rest ++ [f] } }
    | none => s

/-! ## The D-port queues and transmitter -/

/-- R13: the mark of a step that stands for room. -/
def StepWait.tell : StepWait → StepWait
  | .closeFrom d _ => .closeFrom d true
  | .order f _ => .order f true
  | w => w

/-- R13: the safety queue announces room to every program step that stands for it. -/
def announceRoom (s : State) : State :=
  { s with zones := s.zones.map (fun e => (e.1, { e.2 with wait := e.2.wait.tell })) }

/-- R11: a free D-port transmitter takes the oldest frame of the safety queue, else of the voice
queue, else of the forward queue; a frame taken from the safety queue announces room (R13). -/
def kickD (s : State) : State :=
  if s.link.dTx.isSome then s
  else match s.link.safety with
    | f :: rest => announceRoom { s with link := { s.link with safety := rest, dTx := some f } }
    | [] => match s.link.voice with
      | f :: rest => { s with link := { s.link with voice := rest, dTx := some f } }
      | [] => match s.link.forward with
        | f :: rest => { s with link := { s.link with forward := rest, dTx := some f } }
        | [] => s

/-- R13: an ORDER frame offered to the safety queue; whether the queue took it. -/
def offerSafety (f : Frame) (s : State) : State × Bool :=
  if s.link.safety.length < Config.safetyCap then
    (kickD { s with link := { s.link with safety := s.link.safety ++ [f] } }, true)
  else (s, false)

/-- R14: a voice frame offered to the voice queue; a full queue drops it. -/
def offerVoice (f : Frame) (s : State) : State :=
  if s.link.voice.length < Config.voiceCap then
    kickD { s with link := { s.link with voice := s.link.voice ++ [f] } }
  else s

/-- R12: an order that has passed, offered to the D-port forward queue; whether the queue took it. -/
def offerOrder (f : Frame) (s : State) : State × Bool :=
  if s.link.forward.length < Config.forwardCap then
    (kickD { s with link := { s.link with forward := s.link.forward ++ [f] } }, true)
  else (s, false)

/-- R12: any other frame offered to the D-port forward queue: when it is full the oldest frame that is
no ORDER makes room, and if there is none the offered frame is dropped. -/
def offerForward (f : Frame) (s : State) : State :=
  if s.link.forward.length < Config.forwardCap then
    kickD { s with link := { s.link with forward := s.link.forward ++ [f] } }
  else match takeFirst (fun x => decide (x.kind ≠ .order)) s.link.forward with
    | some (_, rest) => kickD { s with link := { s.link with forward := rest ++ [f] } }
    | none => s

/-- R6: "forwarded": to the other segment's queue. -/
def forwardFrame (p : Port) (f : Frame) (s : State) : State := match p with
  | .b => offerForward f s
  | .d => offerDToB f s

/-! ## Terms and rules -/

/-- Table 3-5 on the masked unsigned values. -/
def Cond.holdsNat : Cond → Nat → Nat → Bool
  | .always, _, _ => true
  | .never, _, _ => false
  | .eq, x, y => decide (x = y)
  | .ne, x, y => decide (x ≠ y)
  | .gt, x, y => decide (y < x)
  | .ge, x, y => decide (y ≤ x)
  | .lt, x, y => decide (x < y)
  | .le, x, y => decide (x ≤ y)

/-- Table 3-5 on signed numbers, for comparators (R90). -/
def Cond.holdsInt : Cond → Int → Int → Bool
  | .always, _, _ => true
  | .never, _, _ => false
  | .eq, x, y => decide (x = y)
  | .ne, x, y => decide (x ≠ y)
  | .gt, x, y => decide (y < x)
  | .ge, x, y => decide (y ≤ x)
  | .lt, x, y => decide (x < y)
  | .le, x, y => decide (x ≤ y)

/-- R48 step 4: the masked comparison. -/
def Term.compare (t : Term) (v : Word16) : Bool :=
  t.cond.holdsNat (v &&& t.mask).toNat (t.value &&& t.mask).toNat

/-- R48: a term evaluated against the point image as it stands. -/
def evalTerm (s : State) (t : Term) : Bool := match t.point with
  | none => false
  | some n =>
    let p := getPoint s n
    match p.quality with
    | .never => false
    | .stale => match t.stale with
      | .asFalse => false
      | .asTrue => true
      | .useValue => t.compare p.value
    | .fresh => t.compare p.value
    | .forced => t.compare p.value

/-- Whether a term reads a FORCED point (R50). -/
def termForced (s : State) (t : Term) : Bool := match t.point with
  | none => false
  | some n => decide ((getPoint s n).quality = .forced)

/-- R49: the index of a rule's four terms. -/
def ruleIndex (s : State) (r : Rule) : Nat :=
  (evalTerm s r.t0).toNat + 2 * (evalTerm s r.t1).toNat + 4 * (evalTerm s r.t2).toNat +
  8 * (evalTerm s r.t3).toNat

/-- R49: whether the mode selector chooses T1. -/
def selectsT1 (s : State) (r : Rule) : Bool := match r.selector with
  | none => true
  | some (n, b) =>
    let p := getPoint s n
    match p.quality with
    | .fresh => p.value.getLsbD b
    | .forced => p.value.getLsbD b
    | .never => false
    | .stale => false

/-- R50: whether the mode selector reads a FORCED point. -/
def selectorForced (s : State) (r : Rule) : Bool := match r.selector with
  | none => false
  | some (n, _) => decide ((getPoint s n).quality = .forced)

/-- R49, R50: the evaluation of a rule and the selected bit. -/
def evalRule (s : State) (r : Rule) : Evaluation × Bool :=
  let i := ruleIndex s r
  let t1 := selectsT1 s r
  let forced := termForced s r.t0 || termForced s r.t1 || termForced s r.t2 || termForced s r.t3 ||
    selectorForced s r
  ({ index := i, t1 := t1, forced := forced }, (if t1 then r.tt1 else r.tt0).getLsbD i)

/-- R55: the points a rule reads, through its terms and its mode selector. -/
def Rule.reads (r : Rule) : List Nat :=
  r.t0.point.toList ++ r.t1.point.toList ++ r.t2.point.toList ++ r.t3.point.toList ++
  (r.selector.map (·.1)).toList

/-- R61: whether a rule reads a zone gate point, 656-671. -/
def Rule.readsGate (r : Rule) : Bool := r.reads.any (fun n => decide (656 ≤ n ∧ n ≤ 671))

/-- R47: whether the four parts of a rule's selector hold. -/
def Rule.matches (r : Rule) (o : Port) (f : Frame) : Bool :=
  (r.origin.isNone || decide (r.origin = some o)) &&
  (r.dest.isNone || decide (r.dest = some f.dest.toNat)) &&
  (r.code.isNone || decide (r.code = some f.code)) &&
  decide (r.devLow ≤ f.device ∧ f.device ≤ r.devHigh)

/-- R47: the first rule in index order whose selector matches. -/
def lookupRule (s : State) (o : Port) (f : Frame) : Option (Nat × Rule) :=
  s.rules.find? (fun e => e.2.matches o f)

/-- R134: whether a zone's gate is shut, following parents. -/
def gateShutIn (zs : Tab Zone) : Nat → Nat → Bool
  | 0, _ => false
  | fuel + 1, z => match Tab.get? zs z with
    | none => false
    | some w => w.state.shuts || (match w.cfg.parent with
      | none => false
      | some p => gateShutIn zs fuel p)

/-- R134: whether the gate of zone z is shut. -/
def gateShut (s : State) (z : Nat) : Bool := gateShutIn s.zones Config.zoneFuel z

/-! ## Axes and doors: one home for every access -/

/-- The channel of an axis. -/
def getAxis (s : State) (a : AxisId) : Axis := s.axes[a]

/-- Set the channel of an axis. -/
def setAxis (a : AxisId) (x : Axis) (s : State) : State :=
  { s with axes := s.axes.set a.val x a.isLt }

/-- The four axes in number order. -/
def allAxes : List AxisId := [0, 1, 2, 3]

/-- Set what is kept for a door. -/
def setDoor (d : Nat) (x : Door) (s : State) : State := { s with doors := Tab.set s.doors d x }

/-- Set what is kept for a zone. -/
def setZone (z : Nat) (x : Zone) (s : State) : State := { s with zones := Tab.set s.zones z x }

/-- The valid doors of a zone, in ascending number (R118, R130). -/
def ownDoors (s : State) (z : Nat) : List (Nat × Door) :=
  s.doors.filter (fun e => decide (e.2.cfg.zone = z))

end Sys2Proof.Machine
end

