-- ==== Sys2Proof/Machine/Calls.lean ====
section
/-! DEFINITION. The calling unit (Chapter 8): starting and ending a call, ownership of the audio
zones, call states, gains, tones and voice frames. -/

namespace Sys2Proof.Machine

open Sys2Proof

/-! ## Requested and owned sets -/

/-- R150: the base set with, for a DECK_WARNING call, every audio zone whose warnings are disabled
removed. -/
def requestedSet (zs : Tab AudioZone) (priority : Nat) (base : ZoneSet) : ZoneSet :=
  if priority = 3 then
    zs.foldl (fun acc e => if e.2.warnings then acc else acc &&& ~~~((1 : ZoneSet) <<< e.1)) base
  else base

/-- The union of the requested sets of some calls. -/
def requestedUnion (cs : List Call) : ZoneSet := cs.foldl (fun acc c => acc ||| c.requested) 0

/-- R152: what a call owns: what it requests and no call before it (of the same or a better priority)
nor behind it (of a better priority) requests. -/
def ownedBy (before : List Call) (c : Call) (behind : List Call) : ZoneSet :=
  c.requested &&& ~~~(requestedUnion (before.filter (fun d => decide (d.priority ≤ c.priority))) |||
    requestedUnion (behind.filter (fun d => decide (d.priority < c.priority))))

/-- R152: every call with the set it owns; `before` are the calls already dealt with. -/
def assignOwners (before : List Call) : List Call → List Call
  | [] => []
  | c :: rest => { c with owned := ownedBy before c rest } :: assignOwners (before ++ [c]) rest

/-- Table 2-3: the priority of the call owning an audio zone, 7 when none does. -/
def ownerPriority (cs : List Call) (n : Nat) : Nat :=
  match cs.find? (fun c => c.owned.getLsbD n) with
  | some c => c.priority
  | none => 7

/-- R152: the 24 ownership points with their values. -/
def ownerWrites (cs : List Call) : List (Nat × Nat) :=
  (List.range 24).map (fun n => (Config.ownerPoint n, ownerPriority cs n))

/-! ## Reports and states -/

/-- R161: a CALL report; ALARM for a priority 0 call. -/
def callReport (c : Call) (e : CallEvent) (owned : ZoneSet) (s : State) : State :=
  offerReport ⟨decide (c.priority = 0),
    .call (some c.number) c.template c.priority c.starter e c.requested owned⟩ s

/-- R155: entry to LIVE. -/
def Call.goLive (c : Call) : Call := { c with state := .live, age := 0, toneCount := 0 }

/-- Table 8-4: the state of a call whose owned set has changed to the one it holds, with the event to
report. -/
def Call.afterOwned (c : Call) : Call × Option CallEvent := match c.state with
  | .waiting =>
    if c.owned = 0 then (c, none)
    else if c.chime = .due then ({ c with state := .chime, chime := .playing, pos := 0 }, some .chime)
    else (c.goLive, some .live)
  | .chime =>
    if c.owned = 0 then ({ c with state := .waiting, chime := .finished }, some .waiting) else (c, none)
  | .live =>
    if c.owned = 0 then ({ c with state := .waiting }, some .waiting) else (c, none)

/-- R152: a call after the recompute, from its owned set before it, with the event to report. -/
def Call.recomputed (old : ZoneSet) (c : Call) : Call × Option CallEvent :=
  if c.owned = old then (c, none) else c.afterOwned

/-- R152: the ownership points as one change event. While the blocks rebuild at a warm restart they wait
for the end of the rebuild (R37, R162; assumption 19). -/
def publishOwners (s : State) : State :=
  if s.rebuilding.isSome then s else writePoints (ownerWrites s.calls) s

/-- R152: ownership recomputed: the owned sets, then the ownership points, then the new states of the
calls whose owned set changed, in list order. -/
def recompute (s : State) : State :=
  let owned := assignOwners [] s.calls
  let s1 := publishOwners { s with calls := owned }
  let after := List.zipWith (fun o c => Call.recomputed o.owned c) s.calls owned
  after.foldl (fun t r => match r.2 with
    | some e => callReport r.1 e r.1.owned t
    | none => t) { s1 with calls := after.map (·.1) }

/-! ## Starting and ending -/

/-- R150: the first number after `last`, wrapping from 255 to 1, that no call holds, with at most
`tries` tries. -/
def freeNumber (cs : List Call) : Nat → Nat → Nat
  | 0, last => last % 255 + 1
  | tries + 1, last =>
    let n := last % 255 + 1
    if cs.any (fun c => decide (c.number = n)) then freeNumber cs tries n else n

/-- R159: the first call that meets a test ends: it leaves the list, its ENDED report is queued and
ownership is recomputed. -/
def endFirst (p : Call → Bool) (why : EndReason) (s : State) : State :=
  match takeFirst p s.calls with
  | some (c, rest) => recompute (callReport c (.ended why) 0 { s with calls := rest })
  | none => s

/-- R132, R159: every call that meets a test ends. The rules give no order; the model ends them one by one
in list order and recomputes ownership after each (assumption 45). -/
def endAll (p : Call → Bool) (why : EndReason) (s : State) : State :=
  (s.calls.filter p).foldl (fun t _ => endFirst p why t) s

/-- R153: the worst priority in the list. -/
def worstPriority (cs : List Call) : Nat := cs.foldl (fun m c => max m c.priority) 0

/-- R153: the call to displace: of the worst priority present, the one nearest the tail; with the
list without it. -/
def displaced (cs : List Call) : Option (Call × List Call) :=
  if worstPriority cs = 0 then none
  else match takeFirst (fun c => decide (c.priority = worstPriority cs)) cs.reverse with
    | some (c, rest) => some (c, rest.reverse)
    | none => none

/-- R151 step 3: the record of a call that joins. -/
def newCall (s : State) (t : Nat) (tpl : Template) (who : Starter) (base : ZoneSet) : Call :=
  { number := freeNumber s.calls 17 s.lastNumber, template := t, priority := tpl.priority
    source := tpl.source, base := base, requested := requestedSet s.audioZones tpl.priority base
    chime := if tpl.preChime then .due else .finished, starter := who
    remaining := if tpl.duration = 0 then none else some (tpl.duration * 10) }

/-- R151 step 3: the call joins the tail with its STARTED report. -/
def joinCall (c : Call) (s : State) : State :=
  callReport c .started 0 { s with calls := s.calls ++ [c], lastNumber := c.number }

/-- R151, R153: a request to start a call, with the calling unit's answer. Ownership is recomputed at each
start, those of zones that rebuild included (assumption 19). -/
def startCall (t : Nat) (who : Starter) (override : Option ZoneSet) (s : State) :
    State × StartAnswer :=
  match Tab.get? s.templates t with
  | none => (s, .notValid)
  | some tpl =>
    let join := fun u : State =>
      let c := newCall u t tpl who (override.getD tpl.zones)
      (recompute (joinCall c u), StartAnswer.started c.number)
    if s.calls.length < Config.callCap then join s
    else if tpl.priority = 0 then match displaced s.calls with
      | some (c, rest) => join (recompute (callReport c (.ended .displaced) 0 { s with calls := rest }))
      | none => (s, .noRoom)
    else (s, .noRoom)

/-- Whether a call was started by an axis. -/
def Call.byAxis (a : AxisId) (c : Call) : Bool := decide (c.starter = .axis a)

/-- Whether a call was started by a zone. -/
def Call.byZone (z : Nat) (c : Call) : Bool := decide (c.starter = .zone z)

/-- R154: an axis tells that it has started to move; its warning call is requested unless one
stands. -/
def tellMoving (a : AxisId) (s : State) : State :=
  match (getAxis s a).cfg.bind (·.warning) with
  | none => s
  | some t =>
    if s.calls.any (Call.byAxis a) then s
    else match startCall t (.axis a) none s with
      | (u, .noRoom) => match Tab.get? s.templates t with
        | some tpl => offerReport ⟨decide (tpl.priority = 0), .call none t tpl.priority (.axis a)
            .refused (requestedSet s.audioZones tpl.priority tpl.zones) 0⟩ u
        | none => u
      | (u, _) => u

/-- R154: an axis tells that it has come to rest; its warning call is withdrawn. -/
def tellAtRest (a : AxisId) (s : State) : State := endFirst (Call.byAxis a) .withdrawn s

/-! ## Voice frames -/

/-- R157: an output sample, truncated toward zero. -/
def outSample (x : Int) (g1 g2 : Nat) : Int := (x * g1 * g2).tdiv 4096

/-- R149: the gain of an audio zone. -/
def zoneGain (s : State) (n : Nat) : Nat := match Tab.get? s.audioZones n with
  | some z => z.gain
  | none => 64

/-- R157: the smallest zone gain among the owned zones. -/
def quietest (s : State) (owned : ZoneSet) : Nat :=
  (List.range 24).foldl (fun g n => if owned.getLsbD n then min g (zoneGain s n) else g) 64

/-- R157: the two gains of a call. A call's template stays valid while the call stands (R148); the
fallback is never reached (assumption 28). -/
def callGains (s : State) (c : Call) : Nat × Nat :=
  if c.priority ≤ 1 then (64, 64)
  else (match Tab.get? s.templates c.template with
    | some t => t.gain
    | none => 64, quietest s c.owned)

/-- R158: sample number `n` of a tone of half-period `h`. -/
def squareWave (h : Option Nat) (n : Nat) : Int := match h with
  | none => 0
  | some k => if n / k % 2 = 0 then 8000 else -8000

/-- R158: sample number `n` of a pattern. -/
def toneSample (p n : Nat) : Int :=
  if (Config.cadence p).getLsbD (n / 800 % 16) then squareWave (Config.tonePair p).1 n
  else squareWave (Config.tonePair p).2 n

/-- R156, Table 8-5: the VOICE frame of a call from 32 input samples. -/
def voiceFrame (s : State) (c : Call) (channel : Nat) (input : List Int) : Frame :=
  let g := callGains s c
  { kind := .voice, dest := 63, src := 0
    payload := [BitVec.ofNat 8 channel, c.block] ++ beBytes 3 c.owned.toNat ++
      input.flatMap (fun x => beSigned 2 (outSample x g.1 g.2)) }

/-- The 32 samples of a pattern from sample `n` on. -/
def toneBlock (p n : Nat) : List Int := (List.range 32).map (fun k => toneSample p (n + k))

/-- R156: one call at an arriving block of its channel, with the frame it produces. -/
def Call.onVoice (s : State) (channel : Nat) (input : List Int) (c : Call) : Call × Option Frame :=
  if c.state = .live ∧ c.source = .voice channel then
    let c1 := { c with age := 0 }
    if c.owned = 0 then (c1, none)
    else ({ c1 with block := c.block + 1 }, some (voiceFrame s c channel input))
  else (c, none)

/-- R156, R159: one call at the voice tick, with the frame it produces. -/
def Call.onTick (s : State) (c : Call) : Call × Option Frame := match c.state, c.source with
  | .chime, _ =>
    if c.owned = 0 ∨ Config.chimeBlocks ≤ c.pos then (c, none)
    else ({ c with pos := c.pos + 1, block := c.block + 1 },
      some (voiceFrame s c 0 (toneBlock 0 (32 * c.pos))))
  | .live, .tone p =>
    if c.owned = 0 then (c, none)
    else ({ c with toneCount := c.toneCount + 32, block := c.block + 1 },
      some (voiceFrame s c p (toneBlock p c.toneCount)))
  | .live, .voice _ => ({ c with age := min 5000 (c.age + 4) }, none)
  | .waiting, _ => (c, none)

/-- Every call takes one step, in list order, and the frames they produce are offered to the voice
queue in that order (R156). -/
def produce (f : Call → Call × Option Frame) (s : State) : State :=
  let rs := s.calls.map f
  rs.foldl (fun t r => match r.2 with
    | some fr => offerVoice fr t
    | none => t) { s with calls := rs.map (·.1) }

/-- R155: whether the 400th chime block of a call has been produced. -/
def Call.chimeOver (c : Call) : Bool :=
  decide (c.state = .chime) && decide (Config.chimeBlocks ≤ c.pos)

/-- R155: the calls of `sel` whose chime is over go LIVE, in list order. -/
def finishChimes (sel : Call → Bool) (s : State) : State :=
  let live := fun c : Call => { c.goLive with chime := .finished }
  (s.calls.filter (fun c => sel c && c.chimeOver)).foldl
    (fun t c => callReport (live c) .live c.owned t)
    { s with calls := s.calls.map (fun c => if sel c && c.chimeOver then live c else c) }

/-- R159: whether the source of a call is lost: LIVE, from a voice channel, and its age at the limit. -/
def Call.isLost (limit : Nat) (c : Call) : Bool := match c.state, c.source with
  | .live, .voice _ => decide (limit ≤ c.age)
  | _, _ => false

/-- R155, R156, R159: the voice tick for the calls of `sel`: their frames in list order, then the ends of
the calls whose source is lost, then the entries to LIVE of the calls whose chime is over
(assumption 21). -/
def tickCalls (sel : Call → Bool) (s : State) : State :=
  finishChimes sel (endAll (fun c => sel c && c.isLost s.settings.sourceLost) .sourceLost
    (produce (fun c => if sel c then Call.onTick s c else (c, none)) s))

end Sys2Proof.Machine
end

