-- ==== Sys2Proof/Machine/Axes.lean ====
section
/-! DEFINITION. An axis as a positioner (Chapter 4) with its coupled followers (R102 to R105): the
published points, the start of a move, slow and quick stops, the end of a move, the announcements of
R82 and the four axis orders. What supervises an axis within an update stands in Update.lean. -/

namespace Sys2Proof.Machine

open Sys2Proof

/-! ## Published quantities -/

/-- R102: the present speed of an axis; a follower in a coupled run takes floor(leader v × Nf / Nl). -/
def axisSpeed (s : State) (x : Axis) : Nat := match x.run, x.coupling with
  | some _, some c => (getAxis s c.leader).ownSpeed * c.nf / c.nl
  | _, _ => x.ownSpeed

/-- R33: the quantity an axis publishes in its point k. -/
def axisQuantity (s : State) (x : Axis) (k : Nat) : Nat :=
  if k = 0 then x.state.code
  else if k = 1 then x.phase.code
  else if k = 2 then x.scaled x.fp
  else if k = 3 then axisSpeed s x
  else if k = 4 then x.flags
  else if k = 5 then x.scaled x.latchFP
  else if k = 6 then x.depth
  else x.outcomeCode

/-- R34: the axis channel writes some of its points as one change event. -/
def publishAxis (a : AxisId) (ks : List Nat) (s : State) : State :=
  writePoints (ks.map (fun k => (Config.axisPoint a.val k, axisQuantity s (getAxis s a) k))) s

/-- The axis channel writes, for one cause, those of its state, phase, depth and outcome points that
have changed, as one change event (R32, R34; assumption 31). -/
def publishMotion (a : AxisId) (s : State) : State := publishAxis a [0, 1, 6, 7] s

/-- Change the channel of an axis. -/
def modifyAxis (a : AxisId) (f : Axis → Axis) (s : State) : State := setAxis a (f (getAxis s a)) s

/-- R102: the followers of an axis. -/
def followersOf (s : State) (a : AxisId) : List AxisId :=
  allAxes.filter (fun b => match (getAxis s b).coupling with
    | some c => decide (c.leader = a)
    | none => false)

/-- The followers of an axis that are in a coupled run. -/
def runningFollowers (s : State) (a : AxisId) : List AxisId :=
  (followersOf s a).filter (fun b => (getAxis s b).run.isSome)

/-- R84: the AXIS report of one ended move. -/
def reportMove (a : AxisId) (tag : Byte) (o : MoveOutcome) (cp : Int) (s : State) : State :=
  routine (.axis a tag o cp) s

/-! ## Starting a move -/

/-- R73: the speeds of a move clamped against one another and the configuration, and where its profile
starts. -/
def clampMove (vmax : Nat) (cp : Int) (m : Move) : Current :=
  let vc := min m.vc vmax
  let vs := min m.vs vc
  { move := m, vs := vs, vc := vc, vk := max 1 (min m.vk vc)
    dec := if m.dec = 0 then m.acc else m.dec
    start := cp, up := decide (cp < m.dest), dist := (m.dest - cp).natAbs
    vacc := vs * 1000, pacc := 0 }

/-- R72: the remaining count. -/
def Current.remaining (c : Current) : Nat := c.dist - c.pacc / 1000

/-- The quotient rounded up. -/
def ceilDiv (n d : Nat) : Nat := (n + d - 1) / d

/-- R78: the braking distance at speed v. -/
def brakingDistance (c : Current) (v : Nat) : Int :=
  (ceilDiv (v * v - c.vk * c.vk) (2 * c.dec) : Int) + c.move.lk + c.move.offset + ceilDiv v 1000

/-- R78: the phase decision. -/
def phaseDecision (c : Current) (p : Phase) : Phase :=
  let v := c.vacc / 1000
  if brakingDistance c v < (c.remaining : Int) then p
  else if c.vk < v then .decel else .creep

/-- R93, R94: whether the end limit ahead of a direction is asserted. -/
def limitAhead (i : LocalInputs) (up : Bool) : Bool := if up then i.upper else i.lower

/-- R84 for a move that ends at its start with nothing moved (R73, R94, R105): its AXIS report; FLOAT
becomes IDLE. The points are written once the starts of the event are over (`startPending`). -/
def endAtStart (a : AxisId) (m : Move) (rest : List Move) (o : MoveOutcome) (s : State) : State :=
  let x := getAxis s a
  reportMove a m.tag o x.cp (setAxis a { x with
    pending := rest, state := .idle, phase := .none, lastOutcome := some o } s)

/-- R102, R154: a follower that is IDLE or FLOAT begins a coupled run with its leader's move, and the calling
unit is told, whether or not a run of the follower has ended in the same event. -/
def beginRun (c : Current) (p : Phase) (b : AxisId) (s : State) : State :=
  let x := getAxis s b
  match x.coupling with
  | none => s
  | some k =>
    if x.state = .idle ∨ x.state = .float then
      let up := if k.opposite then !c.up else c.up
      tellMoving b (publishMotion b (setAxis b { x with
        cp := x.fp, fe := 0, state := .moving, phase := p, dirUp := up
        run := some { tag := c.move.tag, up := up, e := 0 } } s))
    else s

/-- R95, R101: out of FLOAT an axis takes CP from FP (assumption 29). -/
def Axis.takeUp (x : Axis) : Axis := if x.state = .float then { x with cp := x.fp, fe := 0 } else x

/-- R71, R73, R94, R105: the oldest pending move starts if the run latch is set and the axis is IDLE
or FLOAT; a move that ends at its start lets the next be considered (DONE before FOLLOWER_FAULT before
LIMIT: assumption 12; the limit inputs are those of the latest inputs stage: assumption 15). It answers
the move that has started, with its phase. `fuel` counts the pending moves that may still be
considered. -/
def startNext : Nat → AxisId → State → State × Option (Current × Phase)
  | 0, _, s => (s, none)
  | fuel + 1, a, s =>
    let x := (getAxis s a).takeUp
    match x.cfg, x.pending with
    | some cfg, m :: rest =>
      if x.latch ∧ (x.state = .idle ∨ x.state = .float) then
        let c := clampMove cfg.vmax x.cp m
        let s0 := setAxis a x s
        let s1 := setAxis a { x with dirUp := c.up } s
        if m.dest = x.cp then startNext fuel a (endAtStart a m rest .done s0)
        else if (followersOf s a).any (fun b => decide ((getAxis s b).state = .fault)) then
          startNext fuel a (endAtStart a m rest .followerFault s1)
        else if limitAhead x.inputs c.up then startNext fuel a (endAtStart a m rest .limit s1)
        else
          let p := phaseDecision c (if c.vs = c.vc then .cruise else .accel)
          (setAxis a { x with
            pending := rest, current := some c, stop := none, state := .moving, phase := p
            dirUp := c.up } s, some (c, p))
      else (s, none)
    | _, _ => (s, none)

/-- R71, R102: as many starts as the move list can hold (R66); the points are written once, then the
calling unit is told of an axis that has started to move, unless it is among those `moving` when the event
began, then its followers begin their runs in ascending number (assumption 39). -/
def startPending (moving : List AxisId) (a : AxisId) (s : State) : State :=
  let r := startNext (Config.pendingCap + 1) a s
  let s1 := publishMotion a r.1
  match r.2 with
  | none => s1
  | some (c, p) =>
    let s2 := if a ∈ moving then s1 else tellMoving a s1
    (followersOf s2 a).foldl (fun t b => beginRun c p b t) s2

/-! ## Ending a move -/

/-- Table 5-2: the outcome and resting state of a follower's coupled run when its leader's move ends
with `o`, named by `namer`, with the leader at rest in `rest`. -/
def runOutcome (o : MoveOutcome) (namer : Option AxisId) (rest : AxisState) (b : AxisId) :
    MoveOutcome × AxisState :=
  if rest = .float then (o, .float)
  else match o with
    | .done => (o, .idle)
    | .arrivedFast => (o, .idle)
    | .noContact => (o, .idle)
    | .gated => (o, .idle)
    | .safe => (o, .idle)
    | .bridgeSilent => (o, .idle)
    | .landed => (o, .float)
    | .restart => (o, .idle)
    | .limit => if namer = some b then (o, .idle) else (.leaderStopped, .idle)
    | .comparator => if namer = some b then (o, .idle) else (.leaderStopped, .idle)
    | .stopped => (.leaderStopped, .idle)
    | .leaderStopped => (.leaderStopped, .idle)
    | .followerFault => (.leaderStopped, .idle)
    | .flushed => (.leaderStopped, .idle)
    | .earlyContact => (.leaderStopped, .idle)

/-- R91: whether a comparator becomes false when its axis comes to rest: one with qualifier UP or DOWN.
A FLAG follows evaluations only. -/
def Comparator.endsAtRest (c : Comparator) : Bool :=
  decide (c.qualifier ≠ .any) && decide (c.action ≠ .flag)

/-- R91: the comparators' previous results of an axis that has come to rest. -/
def Axis.restPrev (x : Axis) : Vector Bool 4 := match x.cfg with
  | none => x.prev
  | some cfg => Vector.ofFn (fun k => x.prev[k] && !(cfg.comps[k]).endsAtRest)

/-- R84, R91, R101, R104: an axis whose move or coupled run has ended with `o`, at rest in `rest`. FE is 0
in FLOAT, from the entry on; CP is set to FP at each update's motion stage. -/
def Axis.rested (x : Axis) (o : MoveOutcome) (rest : AxisState) : Axis :=
  { x with current := none, stop := none, run := none, state := rest, phase := .none
           fe := if rest = .float then 0 else x.fe, lastOutcome := some o, prev := x.restPrev }

/-- R104: a coupled run ends: the AXIS report. The follower's points are written when it is known
whether a new run begins (R71). -/
def endRun (b : AxisId) (o : MoveOutcome) (rest : AxisState) (s : State) : State :=
  let x := getAxis s b
  match x.run with
  | none => s
  | some r => reportMove b r.tag o x.cp (setAxis b (x.rested o rest) s)

/-- R84 step 3: an axis that was moving and has come to rest tells the calling unit. -/
def tellIfAtRest (b : AxisId) (s : State) : State :=
  match (getAxis s b).state with
  | .idle => tellAtRest b s
  | .float => tellAtRest b s
  | .fault => tellAtRest b s
  | _ => s

/-- R84, R104, R71: the current move of an axis ends with `o` (named by `namer`) and the axis comes to
rest in `rest`: AXIS report, the ends of its followers' runs, the next pending move, the points of each
axis as one change event, and the tellings of the axes that stay at rest (assumption 39). -/
def finishMove (a : AxisId) (o : MoveOutcome) (namer : Option AxisId) (rest : AxisState)
    (s : State) : State :=
  let x := getAxis s a
  match x.current with
  | none => s
  | some c =>
    let runs := runningFollowers s a
    let moving := a :: runs
    let s1 := reportMove a c.move.tag o x.cp (setAxis a (x.rested o rest) s)
    let s2 := runs.foldl (fun t b => endRun b (runOutcome o namer rest b).1
      (runOutcome o namer rest b).2 t) s1
    let s3 := runs.foldl (fun t b => publishMotion b t) (startPending moving a s2)
    moving.foldl (fun t b => tellIfAtRest b t) s3

/-! ## Stops -/

/-- R102: the followers' runs take the leader's state and phase. -/
def followPhase (a : AxisId) (st : AxisState) (p : Phase) (s : State) : State :=
  (runningFollowers s a).foldl (fun t b =>
    publishAxis b [0, 1] (modifyAxis b (fun y => { y with state := st, phase := p }) t)) s

/-- R79: a slow stop of an axis; it does nothing to an axis that is not MOVING. R79 is followed for a LAND
move in CREEP too: at or below VS it comes to rest IDLE at once, where R100's sentence has STOPPING and
FLOAT (assumption 44). -/
def slowStop (a : AxisId) (o : MoveOutcome) (namer : Option AxisId) (s : State) : State :=
  let x := getAxis s a
  match x.state, x.current with
  | .moving, some c =>
    if c.vacc / 1000 ≤ c.vs then finishMove a o namer .idle s
    else followPhase a .stopping .none (publishMotion a (setAxis a { x with
      state := .stopping, phase := .none, stop := some { outcome := o, namer := namer } } s))
  | _, _ => s

/-- R80: a quick stop; a STOPPING axis keeps the outcome already named. -/
def quickStop (a : AxisId) (o : MoveOutcome) (namer : Option AxisId) (s : State) : State :=
  let x := getAxis s a
  match x.state with
  | .moving => finishMove a o namer .idle s
  | .stopping => match x.stop with
    | some n => finishMove a n.outcome n.namer .idle s
    | none => finishMove a o namer .idle s
  | _ => s

/-- R83, FLUSH: every pending move is discarded, oldest first. The points are written by the
announcement (`announceAxis`). -/
def flushPending (a : AxisId) (s : State) : State :=
  let x := getAxis s a
  if x.pending.isEmpty then s
  else x.pending.foldl (fun t m => reportMove a m.tag .flushed x.cp t)
    (setAxis a { x with pending := [], lastOutcome := some .flushed } s)

/-- R83: whether the hold policy of an axis is FLUSH. -/
def Axis.flushes (x : Axis) : Bool := match x.cfg with
  | some c => decide (c.policy = .flush)
  | none => false

/-- R82, R102: an announcement reaches an axis: run latch, hold policy, then a slow stop of a MOVING
axis; a follower only clears its latch. The outcome point is written once, with the outcome of the last
move to end (R33). -/
def announceAxis (o : MoveOutcome) (a : AxisId) (s : State) : State :=
  let x := getAxis s a
  if x.state = .disabled then s
  else
    let s1 := setAxis a { x with latch := false } s
    if x.isFollower then s1
    else publishMotion a (slowStop a o none (if x.flushes then flushPending a s1 else s1))

/-- R82: an announcement to every axis, in ascending number (assumption 40). -/
def announceAll (o : MoveOutcome) (s : State) : State :=
  allAxes.foldl (fun t a => announceAxis o a t) s

/-- The axes whose configuration names a zone (R82, R141), in ascending number (assumption 40). -/
def axesOf (s : State) (z : Nat) : List AxisId :=
  allAxes.filter (fun a => match (getAxis s a).cfg with
    | some c => decide (c.zone = some z)
    | none => false)

/-- R134: the shutting of a zone's gate is announced to its axes (in the order of assumption 40). -/
def announceGate (z : Nat) (s : State) : State :=
  (axesOf s z).foldl (fun t a => announceAxis .gated a t) s

/-- R141: HALT quick-stops every axis of a zone; a follower is stopped through its leader. -/
def haltZone (z : Nat) (s : State) : State :=
  (axesOf s z).foldl
    (fun t a => if (getAxis t a).isFollower then t else quickStop a .gated none t) s

/-! ## The axis orders -/

/-- R68: the stored end of a move joining the list of an axis. -/
def moveEnd (x : Axis) (m : Move) : Int :=
  if m.relative then
    (match x.pending.getLast? with
     | some p => p.dest
     | none => match x.state, x.current with
       | .moving, some c => c.move.dest
       | _, _ => x.cp) + m.target
  else m.target

/-- R67: a MOVE delivered to an axis; `none` is taken. -/
def deliverMove (a : AxisId) (tag : Byte) (args : List Byte) (s : State) :
    State × Option SubReason :=
  let x := getAxis s a
  match decodeMove tag args with
  | none => (s, some .range)
  | some m =>
    match x.cfg with
    | none => (s, some .state)
    | some cfg =>
      if x.state = .disabled ∨ x.state = .fault then (s, some .state)
      else if x.isFollower then (s, some .coupled)
      else if Config.pendingCap ≤ x.pending.length then (s, some .queueFull)
      else
        let dest := moveEnd x m
        if dest < Config.posMin ∨ Config.posMax < dest ∨ dest < cfg.low ∨ cfg.high < dest then
          (s, some .range)
        else
          (startPending [] a
            (setAxis a { x with pending := x.pending ++ [{ m with dest := dest }] } s), none)

/-- R70: an AXIS_GO delivered to an axis. -/
def deliverGo (a : AxisId) (args : List Byte) (s : State) : State × Option SubReason :=
  let x := getAxis s a
  if args.length ≠ 0 then (s, some .range)
  else if x.state = .disabled ∨ x.state = .fault then (s, some .state)
  else if x.isFollower then (s, some .coupled)
  else (startPending [] a (setAxis a { x with latch := true } s), none)

/-- Table 4-8: an AXIS_STOP taken by an axis that is no follower. -/
def stopAxis (quick : Bool) (a : AxisId) (s : State) : State :=
  let x := getAxis s a
  let s1 := setAxis a { x with latch := false } s
  match x.state with
  | .moving => if quick then quickStop a .stopped none s1 else slowStop a .stopped none s1
  | .stopping => if quick then quickStop a .stopped none s1 else s1
  | .float => publishAxis a [0, 1]
      (setAxis a { x with latch := false, state := .idle, cp := x.fp, fe := 0 } s)
  | .idle => s1
  | .fault => s1
  | .disabled => s1

/-- R81, R102: an AXIS_STOP delivered to an axis; to a follower it acts on its leader. A bad argument
to a DISABLED axis is answered RANGE: R81 gives no sequence (assumption 32). -/
def deliverStop (a : AxisId) (args : List Byte) (s : State) : State × Option SubReason :=
  let x := getAxis s a
  match args with
  | [b] =>
    if 1 < b.toNat then (s, some .range)
    else if x.state = .disabled then (s, some .state)
    else match x.coupling with
      | some k => (stopAxis (decide (b = 1)) k.leader s, none)
      | none => (stopAxis (decide (b = 1)) a s, none)
  | _ => (s, some .range)

end Sys2Proof.Machine
end

