-- ==== Sys2Proof/Machine/ModeControl.lean ====
section
/-! DEFINITION. Mode control (Chapter 10): fault classes, the response to a class, entry into SAFE, and
what the interlock engine does with held orders at the three announcements of R59, with its VERDICT
reports (R61). -/

namespace Sys2Proof.Machine

open Sys2Proof

/-! ## Verdict reports -/

/-- R61: whether a refusal is of class ALARM. -/
def refusalAlarm (s : State) (why : RefuseReason) (rule : Option Nat) : Bool :=
  let readsGate := match rule.bind (Tab.get? s.rules) with
    | some r => r.readsGate
    | none => false
  match why with
  | .gated => true
  | .rule => readsGate
  | .holdFull => readsGate
  | .holdExpired => readsGate
  | .mode => false
  | .target _ => false
  | .default => false
  | .ruleChanged => false
  | .bridgeSilent => false
  | .queueFull => false

/-- R61: the report of a refusal. -/
def refuse (why : RefuseReason) (f : Frame) (o : Port) (rule : Option Nat) (e : Option Evaluation)
    (s : State) : State :=
  offerReport ⟨refusalAlarm s why rule, .verdict .refused (some why) f o rule e⟩ s

/-- R61: the report of a pass, a hold or a release. -/
def reportVerdict (v : Verdict) (f : Frame) (o : Port) (rule : Option Nat) (e : Option Evaluation)
    (s : State) : State :=
  routine (.verdict v none f o rule e) s

/-- R59: every held order is refused, oldest first. -/
def refuseHeld (why : RefuseReason) (s : State) : State :=
  s.hold.foldl (fun t h => refuse why h.frame h.origin (some h.rule) (some h.eval) t)
    { s with hold := [] }

/-! ## Changing the mode -/

/-- R176 steps 3 and 4. -/
def announceMode (prev new : Mode) (cause : ModeCause) (s : State) : State :=
  alarm (.modeChanged prev new cause) (writePoints [(Config.modePoint, new.code)] s)

/-- R176 step 2, entry into SAFE: the held orders are refused, then the axes act (assumption 11). -/
def tellSafe (s : State) : State := announceAll .safe (refuseHeld .mode s)

/-- R176: the part enters SAFE from RUN. -/
def enterSafe (cause : ModeCause) (s : State) : State :=
  announceMode s.mode .safe cause (tellSafe { s with mode := .safe })

/-! ## Fault classes -/

/-- R178: the contributors to a level class, counted in the blocks' state (assumption 20). -/
def contributors (s : State) : FaultClass → Nat
  | .bridgeSilent => if s.link.bridge = .silent then 1 else 0
  | .stationSilent => (s.stations.filter (fun e => decide (e.2.state = .silent))).length
  | .axisTrip => (allAxes.filter (fun a => decide ((getAxis s a).state = .fault ∧
      (getAxis s a).cause = some .trip))).length
  | .axisDrive => (allAxes.filter (fun a => decide ((getAxis s a).state = .fault ∧
      (getAxis s a).cause = some .drive))).length
  | .doorJammed => (s.doors.filter (fun e => decide (e.2.state = .jammed))).length
  | .doorSensor => (s.doors.filter (fun e => e.2.disagree)).length
  | .linkErrors => 0
  | .programError => 0

/-- What mode control keeps for a class. -/
def getClass (s : State) (c : FaultClass) : ClassState := s.classes[c.bit]

/-- Set what mode control keeps for a class. -/
def setClass (c : FaultClass) (x : ClassState) (s : State) : State :=
  { s with classes := s.classes.set c.bit.val x c.bit.isLt }

/-- R179: the response to a class. -/
def responseTo (s : State) (c : FaultClass) : Response := s.responses[c.bit]

/-- R178, R180: classes that have just changed: point 698 once, a FAULT report for each, lower bit
first, then the response of each that became active. -/
def classesChanged (cs : List FaultClass) (who : Contributor) (s : State) : State :=
  if cs.isEmpty then s
  else
    let set := activeSet s
    let s1 := writePoints [(Config.faultPoint, set.toNat)] s
    let s2 := cs.foldl (fun t c => alarm (.fault c (getClass s c).active who set) t) s1
    cs.foldl (fun t c =>
      if (getClass s c).active = true ∧ t.mode = .run ∧ responseTo t c = .safe then
        enterSafe (.fault c) t
      else t) s2

/-- R178: the count of a level class taken from the blocks. -/
def recount (c : FaultClass) (s : State) : State :=
  setClass c { getClass s c with count := contributors s c, active := decide (0 < contributors s c) } s

/-- R178: a block tells mode control of level classes, lower bit first. While the blocks rebuild at a
warm restart nothing is told: R182 recomputes every class (assumption 19). -/
def tell (cs : List FaultClass) (who : Contributor) (s : State) : State :=
  if s.rebuilding.isSome then s
  else
    let s1 := cs.foldl (fun t c => recount c t) s
    classesChanged
      (cs.filter (fun c => decide ((getClass s1 c).active ≠ (getClass s c).active))) who s1

/-- R178: one occurrence of an occurrence class. -/
def occurrence (c : OccurrenceClass) (who : Contributor) (s : State) : State :=
  if s.rebuilding.isSome then s
  else
    let f := occurrenceFault c
    let s1 := setClass f { getClass s f with active := true, timer := Config.occurrenceTicks } s
    if (getClass s f).active then s1 else classesChanged [f] who s1

end Sys2Proof.Machine
end

