-- ==== Sys2Proof/Machine/Update.lean ====
section
/-! DEFINITION. The 1 ms update of an axis (R74): inputs, motion with the coupler (R72 to R79, R103),
error, and the five supervision checks (R88); entry into FAULT (R97), the announcements between
coupled partners (R105) and AXIS_CLEAR (R98). -/

namespace Sys2Proof.Machine

open Sys2Proof

/-! ## Inputs -/

/-- R65: one step of the quadrature encoder: the count it gives and whether it is illegal. Channel A
leading channel B counts up (assumption 5). -/
def quadStep (a b a' b' : Bool) : Int × Bool :=
  match a, b, a', b' with
  | false, false, true, false => (1, false)
  | true, false, true, true => (1, false)
  | true, true, false, true => (1, false)
  | false, true, false, false => (1, false)
  | false, false, false, true => (-1, false)
  | false, true, true, true => (-1, false)
  | true, true, true, false => (-1, false)
  | true, false, false, false => (-1, false)
  | false, false, true, true => (0, true)
  | true, true, false, false => (0, true)
  | false, true, true, false => (0, true)
  | true, false, false, true => (0, true)
  | false, false, false, false => (0, false)
  | false, true, false, true => (0, false)
  | true, false, true, false => (0, false)
  | true, true, true, true => (0, false)

/-- R65: FP after one count; a count past either end of the range is lost. -/
def countFP (fp d : Int) : Int := max Config.posMin (min Config.posMax (fp + d))

/-- R65: the encoder followed through successive levels: FP, the levels, and whether an illegal
transition was seen. -/
def followEncoder : List (Bool × Bool) → Int → Bool → Bool → Bool → Int × Bool × Bool × Bool
  | [], fp, a, b, ill => (fp, a, b, ill)
  | (a', b') :: rest, fp, a, b, ill =>
    followEncoder rest (countFP fp (quadStep a b a' b').1) a' b' (ill || (quadStep a b a' b').2)

/-- R74 stage 1: the axis with its inputs taken, and whether an illegal transition was seen. -/
def Axis.takeInputs (x : Axis) (i : AxisInputs) : Axis × Bool :=
  match followEncoder i.encoder x.fp x.encA x.encB false with
  | (fp, a, b, ill) =>
    ({ x with fp := fp, encA := a, encB := b, inputs := i.pins
              travel := x.travel + BitVec.ofNat 32 (fp - x.fp).natAbs }, ill)

/-! ## Entry into FAULT (R97) -/

/-- R105: an announcement joins those on their way; each is taken on its own. -/
def announcePartner (m : PartnerMsg) (s : State) : State := { s with partner := s.partner ++ [m] }

/-- R105: a follower announces to its leader; another axis has no leader. -/
def tellLeader (a : AxisId) (st : PartnerStop) (s : State) : State :=
  match (getAxis s a).coupling with
  | some k => announcePartner { target := k.leader, sender := a, stop := st } s
  | none => s

/-- R97 step 2: the tags of the moves that end FLUSHED, the current move or coupled run first. -/
def Axis.tags (x : Axis) : List Byte := x.currentTag.toList ++ x.pending.map (·.tag)

/-- R97: the fault class of a cause. -/
def FaultCause.cls : FaultCause → FaultClass
  | .trip => .axisTrip
  | .drive => .axisDrive

/-- R97 step 5: the AXIS_FAULT report. -/
def reportFault (a : AxisId) (cause : FaultCause) (tag : Option Byte) (s : State) : State :=
  let x := getAxis s a
  alarm (.axisFault a cause x.cp x.fp x.fe tag) s

/-- R104: a leader that enters FAULT ends its followers' runs LEADER_STOPPED in IDLE. The report, points
and telling are made follower by follower, in ascending number (assumption 39). -/
def endRunsOf (a : AxisId) (s : State) : State :=
  (runningFollowers s a).foldl (fun t b =>
    tellIfAtRest b (publishMotion b (endRun b .leaderStopped .idle t))) s

/-- R97: entry into FAULT. -/
def enterFault (a : AxisId) (cause : FaultCause) (s : State) : State :=
  let x := getAxis s a
  let flushed := x.tags
  let s1 := flushed.foldl (fun t g => reportMove a g .flushed x.cp t) (setAxis a { x with
    current := none, run := none, stop := none, pending := [], latch := false, state := .fault
    phase := .none, cause := some cause
    lastOutcome := if flushed.isEmpty then x.lastOutcome else some .flushed } s)
  let s2 := reportFault a cause x.currentTag (publishMotion a s1)
  let s3 := tell [cause.cls] (.axis a) s2
  let s4 := if x.state = .moving ∨ x.state = .stopping then tellAtRest a s3 else s3
  endRunsOf a (tellLeader a .followerFault s4)

/-! ## Motion (R72 to R79, R103) -/

/-- R103: whether a follower may take the count its leader's next count gives it, and the follower
after that count. -/
def followCount (y : Axis) : Option Axis := match y.run, y.cfg, y.coupling with
  | some r, some cfg, some k =>
    let e := r.e + k.nf
    if e < k.nl then some { y with run := some { r with e := e } }
    else
      let cp := if r.up then y.cp + 1 else y.cp - 1
      if (r.up = true ∧ cfg.high < cp) ∨ (r.up = false ∧ cp < cfg.low) then none
      else some { y with cp := cp, pulses := y.pulses + 1, run := some { r with e := e - k.nl } }
  | _, _, _ => some y

/-- R103: up to `n` leader counts, one at a time; a count whose follower may not follow is withheld,
and the follower that withheld it is named. All followers of one count are checked before any takes it
(assumption 13). -/
def emitCounts : Nat → AxisId → Bool → State → State × Option AxisId
  | 0, _, _, s => (s, none)
  | n + 1, a, up, s =>
    let runs := runningFollowers s a
    match runs.find? (fun b => (followCount (getAxis s b)).isNone) with
    | some b => (s, some b)
    | none =>
      let s1 := runs.foldl (fun t b => match followCount (getAxis t b) with
        | some y => setAxis b y t
        | none => t) s
      emitCounts n a up (modifyAxis a (fun x =>
        { x with cp := if up then x.cp + 1 else x.cp - 1, pulses := x.pulses + 1 }) s1)

/-- R75: the velocity step: velocity accumulator and phase. -/
def velocityStep (c : Current) (p : Phase) : Nat × Phase := match p with
  | .accel => if c.vc * 1000 ≤ c.vacc + c.move.acc then (c.vc * 1000, .cruise)
      else (c.vacc + c.move.acc, .accel)
  | .decel => if c.vacc - c.dec ≤ c.vk * 1000 then (c.vk * 1000, .creep) else (c.vacc - c.dec, .decel)
  | .cruise => (c.vacc, .cruise)
  | .creep => (c.vacc, .creep)
  | .none => (c.vacc, .none)

/-- R76: the whole counts an update emits at speed v: what pacc gains, at most what remains. -/
def pulsesOf (c : Current) (v : Nat) : Nat :=
  min ((c.pacc + v) / 1000 - c.pacc / 1000) c.remaining

/-- The step pulses of an update begin anew, for the axis and its running followers (assumption 6). -/
def clearPulses (a : AxisId) (s : State) : State :=
  (a :: runningFollowers s a).foldl
    (fun t b => modifyAxis b (fun y => { y with pulses := 0 }) t) s

/-- R76, R103: the position step at speed v, the coupler with it; the follower that withheld a count,
if one did. -/
def positionStep (a : AxisId) (c : Current) (v : Nat) (s : State) : State × Option AxisId :=
  let r := emitCounts (pulsesOf c v) a c.up (clearPulses a s)
  (modifyAxis a (fun x => { x with current := some { c with pacc := c.pacc + v } }) r.1, r.2)

/-- R92: the latch record is written. -/
def takeLatch (a : AxisId) (s : State) : State :=
  modifyAxis a (fun x =>
    { x with latchCP := x.cp, latchFP := x.fp, latchCount := (x.latchCount + 1) % 256 }) s

/-- R77, R99: a move that has arrived ends; v is the speed it arrived with. -/
def arrive (a : AxisId) (c : Current) (v : Nat) (s : State) : State :=
  let s1 := modifyAxis a (fun x => { x with cp := c.move.dest }) s
  if c.move.land then
    if (getAxis s a).inputs.contact then finishMove a .landed none .float (takeLatch a s1)
    else finishMove a .noContact none .idle s1
  else finishMove a (if v ≤ c.vk then .done else .arrivedFast) none .idle s1

/-- R102: the phase of a MOVING axis changes and is published, its followers' with it. -/
def setPhase (a : AxisId) (p : Phase) (s : State) : State :=
  let x := getAxis s a
  if x.phase = p then s
  else followPhase a .moving p (publishAxis a [1] (setAxis a { x with phase := p } s))

/-- R74 stage 2, MOVING: velocity step, position step, arrival check, phase decision. -/
def moveStep (a : AxisId) (c : Current) (s : State) : State :=
  let vp := velocityStep c (getAxis s a).phase
  let c1 := { c with vacc := vp.1 }
  let v := vp.1 / 1000
  let r := positionStep a c1 v (setPhase a vp.2 s)
  match r.2 with
  | some b => quickStop a .limit (some b) r.1
  | none =>
    let c2 := { c1 with pacc := c1.pacc + v }
    if c2.dist ≤ c2.pacc / 1000 then arrive a c2 v r.1
    else if vp.2 = .accel ∨ vp.2 = .cruise then setPhase a (phaseDecision c2 vp.2) r.1
    else r.1

/-- R79: the stopping step; an axis it brings to rest is IDLE before the contact check (assumption 44). -/
def stopStep (a : AxisId) (c : Current) (s : State) : State :=
  let vacc := c.vacc - c.dec
  if vacc ≤ c.vs * 1000 then quickStop a .stopped none (clearPulses a s)
  else
    let c1 := { c with vacc := vacc }
    let r := positionStep a c1 (vacc / 1000) s
    match r.2 with
    | some b => quickStop a .limit (some b) r.1
    | none =>
      if c.dist ≤ (c.pacc + vacc / 1000) / 1000 then
        quickStop a .stopped none (modifyAxis a (fun x => { x with cp := c.move.dest }) r.1)
      else r.1

/-- R74 stage 2. A follower's counts come from its leader's motion stage (R103). -/
def motionStage (a : AxisId) (s : State) : State :=
  let x := getAxis s a
  match x.state, x.current with
  | .moving, some c => moveStep a c s
  | .stopping, some c => stopStep a c s
  | .float, _ => setAxis a { x with cp := x.fp, pulses := 0 } s
  | .idle, _ => setAxis a { x with pulses := 0 } s
  | .fault, _ => setAxis a { x with pulses := 0 } s
  | _, _ => s

/-- R65: FE saturates at -32767 and +32767. -/
def followingError (cp fp : Int) : Int := max (-Config.feMax) (min Config.feMax (cp - fp))

/-- R74 stage 3, R101: FE is 0 in FLOAT. -/
def errorStage (a : AxisId) (s : State) : State :=
  modifyAxis a (fun x =>
    { x with fe := if x.state = .float then 0 else followingError x.cp x.fp }) s

/-! ## Supervision (R88) -/

/-- R96: the drive check; `illegal` is an illegal transition seen since the previous update. -/
def driveCheck (a : AxisId) (illegal : Bool) (s : State) : State :=
  let x := getAxis s a
  if x.inputs.driveFault = false ∧ illegal = false then s
  else match x.state with
    | .disabled => s
    | .fault =>
      if x.cause = some .trip then
        tell [.axisTrip, .axisDrive] (.axis a)
          (reportFault a .drive none (setAxis a { x with cause := some .drive } s))
      else s
    | _ => enterFault a .drive s

/-- R95: the trip check. -/
def tripCheck (a : AxisId) (s : State) : State :=
  let x := getAxis s a
  match x.cfg with
  | none => s
  | some cfg =>
    if (x.state = .idle ∨ x.state = .moving ∨ x.state = .stopping) ∧ cfg.trip < x.fe.natAbs then
      enterFault a .trip s
    else s

/-- R93, R105: the end-limit check; a follower's acts on its leader. -/
def limitCheck (a : AxisId) (s : State) : State :=
  let x := getAxis s a
  match x.direction with
  | none => s
  | some up =>
    if (x.state = .moving ∨ x.state = .stopping) ∧ limitAhead x.inputs up = true then
      if x.isFollower then tellLeader a .endLimit s else quickStop a .limit none s
    else s

/-- R99, R100: the contact check of a LAND move. -/
def contactCheck (a : AxisId) (s : State) : State :=
  let x := getAxis s a
  match x.current with
  | none => s
  | some c =>
    if c.move.land = true ∧ x.inputs.contact = true then
      match x.state with
      | .moving =>
        if x.phase = .creep then finishMove a .landed none .float (takeLatch a s)
        else quickStop a .earlyContact none s
      | .stopping => match x.stop with
        | some n => finishMove a n.outcome n.namer .float (takeLatch a s)
        | none => s
      | _ => s
    else s

/-- R90: the value of a comparator's source, from the counters at the error stage. -/
def sourceValue (src : Source) (x : Axis) : Int := match src with
  | .cp => x.cp
  | .fp => x.fp
  | .absFe => x.fe.natAbs
  | .travel => (x.travel.toNat % 16777216 : Nat)

/-- R90: the result of a comparator: comparison on the values `y` of the error stage, and the
direction of the current move or coupled run. -/
def Comparator.holds (c : Comparator) (y x : Axis) : Bool :=
  c.cond.holdsInt (sourceValue c.source y) c.value &&
    match c.qualifier with
    | .any => true
    | .up => decide (x.direction = some true)
    | .down => decide (x.direction = some false)

/-- R91: the COMPARE report; a LATCH action carries the latch record. -/
def reportCompare (a : AxisId) (k : Fin 4) (c : Comparator) (y : Axis) (tag : Option Byte) (s : State) :
    State :=
  let x := getAxis s a
  routine (.compare a k.val c.action (sourceValue c.source y) y.cp y.fp tag
    (if c.action = .latch then some (x.latchCP, x.latchFP, x.latchCount) else none)) s

/-- R91, R105: what a comparator does when it fires; a follower's stop actions act on its leader. The
report follows the action and carries the tag of the move that was current before it (assumption 11). -/
def fire (a : AxisId) (k : Fin 4) (c : Comparator) (y : Axis) (s : State) : State :=
  let x := getAxis s a
  let report := reportCompare a k c y x.currentTag
  match c.action with
  | .none => s
  | .flag => s
  | .report => report s
  | .latch => report (takeLatch a s)
  | .slowStop => report (if x.isFollower then
      if x.state = .fault then s else tellLeader a .slowComparator s
    else slowStop a .comparator none s)
  | .quickStop => report (if x.isFollower then
      if x.state = .fault then s else tellLeader a .quickComparator s
    else quickStop a .comparator none s)

/-- R90: comparator k is evaluated; it fires when its result changes from false to true. -/
def compare (a : AxisId) (y : Axis) (k : Fin 4) (s : State) : State :=
  let x := getAxis s a
  match x.cfg with
  | none => s
  | some cfg =>
    let c := cfg.comps[k]
    let now := c.holds y x
    let s1 := setAxis a { x with prev := x.prev.set k.val now k.isLt } s
    if now = true ∧ x.prev[k] = false then fire a k c y s1 else s1

/-- R88, R90: comparators 0 to 3 in their numbered order. -/
def comparatorCheck (a : AxisId) (y : Axis) (s : State) : State :=
  compare a y 3 (compare a y 2 (compare a y 1 (compare a y 0 s)))

/-- R74: the update of one axis. A DISABLED axis takes the inputs stage alone. The flags point is
written at the end, as a change event of its own (assumption 31). -/
def updateAxis (a : AxisId) (i : AxisInputs) (s : State) : State :=
  let r := (getAxis s a).takeInputs i
  let s1 := setAxis a r.1 s
  if r.1.state = .disabled then publishAxis a [4] (modifyAxis a (fun x => { x with pulses := 0 }) s1)
  else
    let s2 := errorStage a (motionStage a s1)
    let y := getAxis s2 a
    publishAxis a [4] (comparatorCheck a y (contactCheck a (limitCheck a
      (tripCheck a (driveCheck a r.2 s2)))))

/-! ## Partners and AXIS_CLEAR -/

/-- R105: what an announcement of a follower does to its leader. -/
def takePartner (m : PartnerMsg) (s : State) : State := match m.stop with
  | .slowComparator => slowStop m.target .comparator (some m.sender) s
  | .quickComparator => quickStop m.target .comparator (some m.sender) s
  | .endLimit => quickStop m.target .limit (some m.sender) s
  | .followerFault => quickStop m.target .followerFault (some m.sender) s

/-- R105: an axis takes the oldest announcement that waits for it. -/
def partnerStep (a : AxisId) (s : State) : State :=
  match takeFirst (fun m => decide (m.target = a)) s.partner with
  | some (m, rest) => takePartner m { s with partner := rest }
  | none => s

/-- R98: an AXIS_CLEAR delivered to an axis. -/
def deliverClear (a : AxisId) (args : List Byte) (s : State) : State × Option SubReason :=
  let x := getAxis s a
  if args.length ≠ 0 then (s, some .range)
  else if x.state = .fault ∧ x.inputs.driveFault = false then
    (tell [.axisTrip, .axisDrive] (.axis a) (publishAxis a [0, 1]
      (setAxis a { x with cp := x.fp, fe := 0, cause := none, state := .idle } s)), none)
  else (s, some .state)

end Sys2Proof.Machine
end

