-- ==== Sys2Proof/Machine/Doors.lean ====
section
/-! DEFINITION. The door monitor (Chapter 6): proofs, the derived state, orders seen, the close limit,
reclose rounds and timers, and the door reports. -/

namespace Sys2Proof.Machine

open Sys2Proof

/-- R109: a proof point as the door monitor reads it: `none` is unusable, `some` says present. -/
def proof (s : State) (n : Nat) : Option Bool :=
  let p := getPoint s n
  match p.quality with
  | .never => none
  | .stale => none
  | .fresh => some (p.value.getLsbD 0)
  | .forced => some (p.value.getLsbD 0)

/-- R109: closed by proof. -/
def closedByProof (s : State) (c : DoorCfg) : Bool :=
  decide (proof s c.closedPoint = some true) && decide (proof s c.openPoint = some false)

/-- R109: open by proof. -/
def openByProof (s : State) (c : DoorCfg) : Bool :=
  decide (proof s c.openPoint = some true) && decide (proof s c.closedPoint = some false)

/-- R109: sensor disagreement. -/
def bothProofs (s : State) (c : DoorCfg) : Bool :=
  decide (proof s c.closedPoint = some true) && decide (proof s c.openPoint = some true)

/-- Table 6-3: the state from the two readings, the order in flight and the jam mark. -/
def doorStateOf (closed opened : Option Bool) (inFlight : InFlight) (jam : Bool) : DoorState :=
  if jam = true ∧ ¬(closed = some true ∧ opened = some false) then .jammed
  else match closed, opened with
    | none, _ => .unknown
    | some _, none => .unknown
    | some true, some true => .unknown
    | some true, some false => .closed
    | some false, some true => .isOpen
    | some false, some false => match inFlight with
      | .close => .closing
      | .opening => .opening
      | .none => .moving

/-- R110: the door derived afresh: jam mark and order in flight settled, then the state. -/
def deriveDoor (s : State) (x : Door) : Door :=
  let closed := closedByProof s x.cfg
  let flight : InFlight :=
    if (closed = true ∧ x.inFlight = .close) ∨ (openByProof s x.cfg = true ∧ x.inFlight = .opening)
    then .none else x.inFlight
  let jam := x.jam && !closed
  { x with
    inFlight := flight
    remaining := if flight = .close then x.remaining else 0
    jam := jam
    disagree := bothProofs s x.cfg
    state := doorStateOf (proof s x.cfg.closedPoint) (proof s x.cfg.openPoint) flight jam }

/-- R119: whether a change is a breach. -/
def isBreach (s : State) (old new : Door) : Bool :=
  decide ((Tab.get? s.zones new.cfg.zone).map (·.state) = some .secured) &&
  decide (old.state = .closed) &&
  (match new.state with
   | .isOpen => true
   | .moving => true
   | .opening => true
   | .unknown => new.disagree
   | .closed => false
   | .closing => false
   | .jammed => false)

/-- R119, R120: the report of a change of a door's derived state. -/
def reportDoor (d : Nat) (old new : Door) (cause : DoorCause) (s : State) : State :=
  let breach := isBreach s old new
  offerReport ⟨breach || decide (new.state = .jammed),
    .door breach d new.cfg ((Tab.get? s.zones new.cfg.zone).map (·.state)) old.state new.state cause⟩ s

/-- R111: the level classes whose contributor a door's change of state or disagreement changes, lower
bit first (R178). -/
def doorClasses (old new : Door) : List FaultClass :=
  (if (decide (old.state = .jammed)) = (decide (new.state = .jammed)) then [] else [.doorJammed]) ++
  (if old.disagree = new.disagree then [] else [.doorSensor])

/-- R111: a door that held `old` derives its state again from what it now keeps, `x`: its point, its
report, and mode control told once of both classes (R35). Each door's point is its own change event
(assumption 31). -/
def settleDoor (d : Nat) (old x : Door) (cause : DoorCause) (s : State) : State :=
  let new := deriveDoor s x
  let s1 := setDoor d new s
  let s2 := if new.state = old.state then s1
    else reportDoor d old new cause (writePoints [(Config.doorPoint d, new.state.code)] s1)
  if (doorClasses old new).isEmpty then s2 else tell (doorClasses old new) (.door d) s2

/-- R111: a valid door derives its state again. -/
def rederive (d : Nat) (cause : DoorCause) (s : State) : State := match Tab.get? s.doors d with
  | some x => settleDoor d x x cause s
  | none => s

/-- R24: the door monitor takes a change event: each door whose proof points it names derives its
state again; several doors in ascending number (assumption 33). -/
def doorsOnEvent (names : List Nat) (s : State) : State :=
  s.doors.foldl (fun t e =>
    if e.2.cfg.closedPoint ∈ names ∨ e.2.cfg.openPoint ∈ names then rederive e.1 .proof t else t) s

/-! ## Orders seen -/

/-- R112 steps 1 and 2: what an order seen leaves in flight. -/
def seeOrder (s : State) (isClose : Bool) (x : Door) : Door :=
  if isClose then
    if closedByProof s x.cfg then { x with jam := false, inFlight := .none, remaining := 0 }
    else { x with jam := false, inFlight := .close, remaining := x.cfg.limit }
  else
    if openByProof s x.cfg then { x with jam := false, inFlight := .none, remaining := 0 }
    else { x with jam := false, inFlight := .opening, remaining := 0 }

/-- R112: whether an order sent on the D-port is seen for a door. -/
def seenBy (f : Frame) (x : Door) : Bool :=
  decide (f.device = x.cfg.device) &&
    (decide (f.dest = 63) || decide (f.dest.toNat = x.cfg.station))

/-- R112: one door sees an order. -/
def doorSees (isClose : Bool) (d : Nat) (s : State) : State := match Tab.get? s.doors d with
  | some x => settleDoor d x (seeOrder s isClose x) .orderSeen s
  | none => s

/-- R11, R112: an ORDER frame has been sent on the D-port; DOOR_CLOSE and DOOR_OPEN are seen, in ascending
door number where several doors see one (assumption 33). -/
def orderSent (f : Frame) (s : State) : State :=
  if f.kind = .order ∧ (f.code = 0x10 ∨ f.code = 0x11) then
    s.doors.foldl (fun t e => if seenBy f e.2 then doorSees (decide (f.code = 0x10)) e.1 t else t) s
  else s

/-- R113: the close limit of a door expires. -/
def closeLimitExpires (d : Nat) (s : State) : State := match Tab.get? s.doors d with
  | some x =>
    if x.inFlight = .close ∧ x.remaining = 0 then
      settleDoor d x { x with
        inFlight := .none, jam := decide (x.state = .closing ∨ x.state = .isOpen) } .closeLimit s
    else s
  | none => s

/-! ## Reclosing -/

/-- R118, R137: the DOOR_CLOSE frame of a door. -/
def closeFrame (c : DoorCfg) : Frame := orderFrame c.station 0x10 c.device []

/-- R118: doors offered a close in turn, until the safety queue refuses one. -/
def offerRound : List (Nat × Door) → State → State
  | [], s => s
  | e :: rest, s =>
    if e.2.state = .closed ∨ e.2.inFlight = .close then offerRound rest s
    else match offerSafety (closeFrame e.2.cfg) s with
      | (t, true) => offerRound rest t
      | (t, false) => t

/-- R118: a reclose round of a zone. -/
def recloseRound (z : Nat) (s : State) : State := offerRound (ownDoors s z) s

/-- Set the reclose timer of a zone to its interval, or stop it. -/
def setReclose (z : Nat) (running : Bool) (s : State) : State := match Tab.get? s.zones z with
  | some w => setZone z { w with reclose := if running then some w.cfg.reclose else none } s
  | none => s

/-- R117: the zone block announces a change of a zone's state to the door monitor. -/
def zoneAnnounced (z : Nat) (prev new : ZoneState) (s : State) : State := match new with
  | .secured => if prev = .incomplete then s else setReclose z true s
  | .incomplete => setReclose z true (recloseRound z s)
  | .normal => setReclose z false s
  | .alert => setReclose z false s
  | .closing => setReclose z false s

/-- R117: the reclose timer of a zone has reached 0. -/
def recloseExpires (z : Nat) (s : State) : State := match Tab.get? s.zones z with
  | some w =>
    if w.reclose = some 0 ∧ (w.state = .secured ∨ w.state = .incomplete) then
      setReclose z true (recloseRound z s)
    else s
  | none => s

end Sys2Proof.Machine
end

