-- ==== Sys2Proof/Machine/Zones.lean ====
section
/-! DEFINITION. The zone block (Chapter 7): triggers, the entries into ALERT and CLOSING, the closure
programs, the judgement of own doors, and the zone orders. -/

namespace Sys2Proof.Machine

open Sys2Proof

/-- Change what is kept for a zone. -/
def modifyZone (z : Nat) (f : Zone → Zone) (s : State) : State := match Tab.get? s.zones z with
  | some w => setZone z (f w) s
  | none => s

/-- R125, R134: the state and gate points of every valid zone. -/
def zoneWrites (s : State) : List (Nat × Nat) :=
  s.zones.flatMap (fun e =>
    [(Config.zonePoint e.1, e.2.state.code), (Config.gatePoint e.1, (gateShut s e.1).toNat)])

/-- R125 step 1: the points of all zones changed by one cause, as one change event. -/
def publishZones (s : State) : State := writePoints (zoneWrites s) s

/-- R125 steps 2 and 3: the ZONE report of one change and its announcement to the door monitor. -/
def reportZone (c : ZoneChange) (s : State) : State :=
  zoneAnnounced c.zone c.prev c.new (alarm (.zone c) s)

/-- R125, R129: the changes of one cause, dealt with in full: points, then reports and announcements in
the order of the changes. -/
def finishChanges (cs : List ZoneChange) (s : State) : State :=
  if cs.isEmpty then s else cs.foldl (fun t c => reportZone c t) (publishZones s)

/-! ## Own doors -/

/-- R130: whether a door counts as closed: its door state point is FRESH with value 2. -/
def doorClosed (s : State) (d : Nat) : Bool :=
  let p := getPoint s (Config.doorPoint d)
  decide (p.quality = .fresh) && decide (p.value = 2)

/-- R138: CLOSED or JAMMED by its door state point. -/
def doorClosedOrJammed (s : State) (d : Nat) : Bool :=
  let p := getPoint s (Config.doorPoint d)
  decide (p.quality = .fresh) && (decide (p.value = 2) || decide (p.value = 6))

/-- R130: the judgement of a zone's own doors. -/
def judgeOwn (s : State) (z : Nat) : ZoneState :=
  if (ownDoors s z).all (fun e => doorClosed s e.1) then .secured else .incomplete

/-- The own doors of a zone with a rank, in ascending number. -/
def rankDoors (s : State) (z r : Nat) : List (Nat × Door) :=
  (ownDoors s z).filter (fun e => decide (e.2.cfg.rank = r))

/-- R138: whether an AWAIT for a rank is over. -/
def awaitOver (s : State) (z r : Nat) : Bool :=
  (rankDoors s z r).all (fun e => doorClosedOrJammed s e.1)

/-! ## Programs -/

/-- R135, Table 7-6: the step codes. -/
def ProgStep.code : ProgStep → Nat
  | .close _ => 1
  | .await _ _ => 2
  | .pause10 _ => 3
  | .pause100 _ => 4
  | .call _ => 5
  | .order .. => 6
  | .halt => 7
  | .branch _ _ => 8
  | .finish => 9

/-- R143: a ZONE_STEP report. -/
def reportStep (z : Nat) (program : Option Nat) (k : Nat) (code : Option Nat) (r : StepResult)
    (s : State) : State :=
  alarm (.zoneStep z program k code r) s

/-- R142: a program error: the report and one PROGRAM_ERROR occurrence. -/
def programError (z : Nat) (program : Option Nat) (k : Nat) (code : Option Nat) (r : StepResult)
    (s : State) : State :=
  occurrence .programError (.zone z) (reportStep z program k code r s)

/-- R130: the program of a zone has ended, or it has none: it leaves CLOSING. -/
def leaveClosing (z : Nat) (s : State) : State × List ZoneChange :=
  let new := judgeOwn s z
  let s1 := modifyZone z (fun w => { w with state := new, cursor := none, wait := .none }) s
  (s1, [{ zone := z, prev := .closing, new := new, gate := gateShut s1 z, cause := .programEnd }])

/-- R137: own doors offered a close in turn; the number of the door the queue refused, if one. -/
def offerCloses : List (Nat × Door) → State → State × Option Nat
  | [], s => (s, none)
  | e :: rest, s =>
    if e.2.state = .closed then offerCloses rest s
    else match offerSafety (closeFrame e.2.cfg) s with
      | (t, true) => offerCloses rest t
      | (t, false) => (t, some e.1)

/-- R140: the frame of an ORDER step. -/
def stepFrame (station code device : Nat) (word : Word16) : Frame :=
  orderFrame station code device [word.extractLsb' 8 8, word.extractLsb' 0 8]

/-- R139: a CALL step. -/
def callStep (z : Nat) (program : Option Nat) (k t : Nat) (s : State) : State :=
  if s.calls.any (fun c => c.byZone z && decide (c.template = t)) then s
  else match startCall t (.zone z) none s with
    | (u, .started _) => u
    | (u, .notValid) => programError z program k (some 5) (.callSkipped t) u
    | (u, .noRoom) => programError z program k (some 5) (.callRefused t) u

/-- A step as the cursor takes it: the state, the step wait it stands with, and the next step. -/
def takeStep (z : Nat) (program : Option Nat) (k : Nat) (step : ProgStep) (s : State) :
    State × StepWait × Option Nat := match step with
  | .close r => match offerCloses (rankDoors s z r) s with
    | (t, none) => (t, .none, some (k + 1))
    | (t, some d) => (t, .closeFrom d false, some k)
  | .await r n => if awaitOver s z r then (s, .none, some (k + 1)) else (s, .await n, some k)
  | .pause10 n => (s, .pause10 n, some k)
  | .pause100 n => (s, .pause100 n, some k)
  | .call t => (callStep z program k t s, .none, some (k + 1))
  | .order st c d w => match offerSafety (stepFrame st c d w) s with
    | (t, true) => (t, .none, some (k + 1))
    | (t, false) => (t, .order (stepFrame st c d w) false, some k)
  | .halt => (haltZone z s, .none, some (k + 1))
  | .branch t target => (s, .none, some (if evalTerm s t then target else k + 1))
  | .finish => (s, .none, none)

/-- R136: the walk from the step the cursor stands on, with at most `fuel` steps; the zone's change of
state if the program ends. -/
def walk : Nat → Nat → State → State × List ZoneChange
  | 0, z, s => leaveClosing z s
  | fuel + 1, z, s => match Tab.get? s.zones z with
    | none => (s, [])
    | some w => match w.cursor with
      | none => (s, [])
      | some k => match (w.cfg.program.bind (Tab.get? s.programs)).bind (fun p => p[k - 1]?) with
        | none => leaveClosing z s
        | some step => match takeStep z w.cfg.program k step s with
          | (t, _, none) => leaveClosing z t
          | (t, .none, some j) =>
            walk fuel z (modifyZone z (fun v => { v with cursor := some j, wait := .none }) t)
          | (t, wait, some _) => (modifyZone z (fun v => { v with wait := wait }) t, [])

/-- R136: the cursor moves to step k and the walk goes on. -/
def walkFrom (z k : Nat) (s : State) : State × List ZoneChange :=
  walk Config.zoneFuel z (modifyZone z (fun w => { w with cursor := some k, wait := .none }) s)

/-- The walk goes on after a wait, as the whole of an event. -/
def resume (z k : Nat) (s : State) : State :=
  let r := walkFrom z k s
  finishChanges r.2 r.1

/-! ## Entries -/

/-- R128: a zone leaves ALERT: its timer stops and its alert call is ended. -/
def leaveAlert (z : Nat) (s : State) : State := match Tab.get? s.zones z with
  | none => s
  | some w =>
    let s1 := setZone z { w with timer := 0, alertCall := none } s
    match w.alertCall with
    | none => s1
    | some n => endFirst (fun c => decide (c.number = n) && c.byZone z) .withdrawn s1

/-- R129: one zone of a cascade enters CLOSING: ALERT is left, the gate shuts, the walk begins. -/
def closeOne (cause : ZoneCause) (z : Nat) (s : State) : State × List ZoneChange :=
  match Tab.get? s.zones z with
  | none => (s, [])
  | some w =>
    let s1 := if w.state = .alert then leaveAlert z s else s
    let s2 := modifyZone z (fun v => { v with state := .closing, timer := 0, wait := .none }) s1
    let s3 := announceGate z s2
    let r := if w.cfg.program.isSome then walkFrom z 1 s3
      else leaveClosing z s3
    (r.1, { zone := z, prev := w.state, new := .closing, gate := gateShut s2 z, cause := cause } :: r.2)

/-- R129: the valid zones in NORMAL or ALERT whose parent is one of a level, that were not taken yet,
in ascending number. -/
def levelBelow (s : State) (level taken : List Nat) : List Nat :=
  (s.zones.filter (fun e =>
    (match e.2.cfg.parent with
     | some p => decide (p ∈ level)
     | none => false) &&
    (decide (e.2.state = .normal) || decide (e.2.state = .alert)) &&
    decide (e.1 ∉ taken))).map (·.1)

/-- R129: the zones a cascade takes below a level, by increasing depth. -/
def cascadeBelow (s : State) : Nat → List Nat → List Nat → List Nat
  | 0, _, _ => []
  | fuel + 1, level, taken =>
    let next := levelBelow s level taken
    if next.isEmpty then [] else next ++ cascadeBelow s fuel next (taken ++ next)

/-- R129: a zone enters CLOSING with the zones nested below it. The report of each zone below names the
zone that began the cascade, at every level (assumption 36). -/
def enterClosing (z : Nat) (cause : ZoneCause) (s : State) : State :=
  let below := cascadeBelow s Config.zoneFuel [z] [z]
  let r := below.foldl (fun acc y =>
    let n := closeOne (.parent z) y acc.1
    (n.1, acc.2 ++ n.2)) (closeOne cause z s)
  finishChanges r.2 r.1

/-- R127: the alert call of a zone that has entered ALERT. -/
def startAlertCall (z : Nat) (s : State) : State :=
  match (Tab.get? s.zones z).bind (fun w => w.cfg.alertTemplate) with
  | none => s
  | some t =>
    let program := (Tab.get? s.zones z).bind (fun w => w.cfg.program)
    match startCall t (.zone z) none s with
    | (u, .started n) => modifyZone z (fun w => { w with alertCall := some n }) u
    | (u, .notValid) => programError z program 0 none (.callSkipped t) u
    | (u, .noRoom) => programError z program 0 none (.callRefused t) u

/-- R127: a zone enters ALERT, or CLOSING when its alert time is 0. -/
def enterAlert (z : Nat) (cause : ZoneCause) (s : State) : State := match Tab.get? s.zones z with
  | none => s
  | some w =>
    if w.cfg.alertTime = 0 then enterClosing z cause s
    else
      let s1 := startAlertCall z (setZone z { w with state := .alert, timer := w.cfg.alertTime } s)
      finishChanges
        [{ zone := z, prev := w.state, new := .alert, gate := gateShut s1 z, cause := cause }] s1

/-- R126: the trigger of a zone is evaluated; a change to true acts by mode and state. Each zone's change
makes its own change event (assumption 37). -/
def evalTrigger (z : Nat) (s : State) : State := match Tab.get? s.zones z with
  | none => s
  | some w =>
    let now := evalTerm s w.cfg.trigger
    let s1 := setZone z { w with trigger := now } s
    if now = true ∧ w.trigger = false then match s.mode with
      | .config => alarm (.zone (ZoneChange.mk z .normal .normal (gateShut s1 z) .triggerInConfig)) s1
      | .run => if w.state = .normal then enterAlert z .trigger s1 else s1
      | .safe => if w.state = .normal then enterAlert z .trigger s1 else s1
    else s1

/-- R126: every valid zone's trigger, in ascending number. -/
def evalTriggers (s : State) : State := s.zones.foldl (fun t e => evalTrigger e.1 t) s

/-- R126: the trigger results are set to false and every trigger is evaluated. -/
def rearmTriggers (s : State) : State :=
  evalTriggers { s with zones := s.zones.map (fun e => (e.1, { e.2 with trigger := false })) }

/-! ## Change events (R24) -/

/-- R136, R138: an AWAIT step re-examines the doors it waits for; where the wait is over the cursor moves
on and the walk goes on within the event. What the walk changes is a cause of its own, so each zone whose
program ends so makes a change event of its own (assumption 37). -/
def reexamine (z : Nat) (s : State) : State := match Tab.get? s.zones z with
  | none => s
  | some w => match w.cursor, w.wait with
    | some k, .await _ =>
      match (w.cfg.program.bind (Tab.get? s.programs)).bind (fun p => p[k - 1]?) with
      | some (.await r _) => if awaitOver s z r then resume z (k + 1) s else s
      | _ => s
    | _, _ => s

/-- R130: a SECURED or INCOMPLETE zone judges its own doors again. -/
def rejudge (z : Nat) (s : State) : State := match Tab.get? s.zones z with
  | none => s
  | some w =>
    if w.state = .secured ∨ w.state = .incomplete then
      let new := judgeOwn s z
      if new = w.state then s
      else
        let s1 := setZone z { w with state := new } s
        finishChanges
          [{ zone := z, prev := w.state, new := new, gate := gateShut s1 z, cause := .doors }] s1
    else s

/-- R24: the zone block takes a change event: triggers, AWAIT steps, own doors, each in ascending zone
number (assumption 4). -/
def zonesOnEvent (names : List Nat) (s : State) : State :=
  let s1 := s.zones.foldl (fun t e => match e.2.cfg.trigger.point with
    | some n => if n ∈ names then evalTrigger e.1 t else t
    | none => t) s
  let s2 := s1.zones.foldl (fun t e => reexamine e.1 t) s1
  s2.zones.foldl (fun t e =>
    if (ownDoors t e.1).any (fun d => decide (Config.doorPoint d.1 ∈ names)) then rejudge e.1 t else t)
    s2

/-! ## Expiries and waits -/

/-- R128: the alert timer of a zone has reached 0. -/
def alertExpires (z : Nat) (s : State) : State := match Tab.get? s.zones z with
  | some w => if w.state = .alert ∧ w.timer = 0 then enterClosing z .alertTime s else s
  | none => s

/-- R138, R143: the doors of a rank that an AWAIT still waits for. -/
def stillOpen (s : State) (z r : Nat) : List Nat :=
  ((rankDoors s z r).filter (fun e => !doorClosedOrJammed s e.1)).map (·.1)

/-- R138: the limit of an AWAIT has run out. -/
def awaitExpires (z : Nat) (s : State) : State := match Tab.get? s.zones z with
  | some w => match w.cursor, w.wait with
    | some k, .await 0 =>
      match (w.cfg.program.bind (Tab.get? s.programs)).bind (fun p => p[k - 1]?) with
      | some (.await r _) =>
        resume z (k + 1) (reportStep z w.cfg.program k (some 2)
          (.awaitLimit r (stillOpen s z r).length ((stillOpen s z r).headD 255)) s)
      | _ => s
    | _, _ => s
  | none => s

/-- R138: a PAUSE10 step has waited its ticks. -/
def pause10Expires (z : Nat) (s : State) : State := match Tab.get? s.zones z with
  | some w => match w.cursor, w.wait with
    | some k, .pause10 0 => resume z (k + 1) s
    | _, _ => s
  | none => s

/-- R138: a PAUSE100 step has waited its ticks. -/
def pause100Expires (z : Nat) (s : State) : State := match Tab.get? s.zones z with
  | some w => match w.cursor, w.wait with
    | some k, .pause100 0 => resume z (k + 1) s
    | _, _ => s
  | none => s

/-- R137, R140: a step that stands for room offers again on the announcement of room. -/
def reoffer (z : Nat) (s : State) : State := match Tab.get? s.zones z with
  | some w => match w.cursor, w.wait with
    | some k, .closeFrom d true =>
      match (w.cfg.program.bind (Tab.get? s.programs)).bind (fun p => p[k - 1]?) with
      | some (.close r) =>
        match offerCloses ((rankDoors s z r).filter (fun e => decide (d ≤ e.1))) s with
        | (t, none) => resume z (k + 1) t
        | (t, some n) => modifyZone z (fun v => { v with wait := .closeFrom n false }) t
      | _ => s
    | some k, .order f true => match offerSafety f s with
      | (t, true) => resume z (k + 1) t
      | (t, false) => modifyZone z (fun v => { v with wait := .order f false }) t
    | _, _ => s
  | none => s

/-! ## Zone orders (R131, R132) -/

/-- R131: the parent's gate is shut. -/
def parentShut (s : State) (w : Zone) : Bool := match w.cfg.parent with
  | some p => gateShut s p
  | none => false

/-- R131: the trigger is evaluated afresh at a delivery; the result is kept and acts on nothing. -/
def freshTrigger (z : Nat) (w : Zone) (s : State) : State :=
  setZone z { w with trigger := evalTerm s w.cfg.trigger } s

/-- R131: the guard of every zone order: argument length, then a valid entry. -/
def zoneOrder (z : Nat) (args : List Byte) (act : Zone → State → State × Option SubReason)
    (s : State) : State × Option SubReason :=
  if args.length ≠ 0 then (s, some .range)
  else match Tab.get? s.zones z with
    | none => (s, some .noSuch)
    | some w => act w s

/-- Table 7-5, ZONE_ALERT. -/
def deliverAlert (f : Frame) (s : State) : State × Option SubReason :=
  zoneOrder f.device f.args (fun w t =>
    (if w.state = .normal then enterAlert f.device (.order f.tag f.src) t else t, none)) s

/-- Table 7-5, ZONE_CLOSE_NOW. -/
def deliverCloseNow (f : Frame) (s : State) : State × Option SubReason :=
  zoneOrder f.device f.args (fun w t =>
    (if w.state = .normal ∨ w.state = .alert then enterClosing f.device (.order f.tag f.src) t else t,
      none)) s

/-- Table 7-5, ZONE_CANCEL. -/
def deliverCancel (f : Frame) (s : State) : State × Option SubReason :=
  zoneOrder f.device f.args (fun w t =>
    if w.state = .alert then
      let t1 := freshTrigger f.device w t
      if evalTerm t w.cfg.trigger then (t1, some .state)
      else
        let t2 := modifyZone f.device (fun v => { v with state := .normal }) (leaveAlert f.device t1)
        (finishChanges [ZoneChange.mk f.device .alert .normal (gateShut t2 f.device)
          (.order f.tag f.src)] t2, none)
    else (t, some .state)) s

/-- Table 7-5 and R132, ZONE_RELEASE. -/
def deliverRelease (f : Frame) (s : State) : State × Option SubReason :=
  zoneOrder f.device f.args (fun w t =>
    if w.state = .secured ∨ w.state = .incomplete then
      let t1 := freshTrigger f.device w t
      if evalTerm t w.cfg.trigger = true ∨ parentShut t w = true then (t1, some .state)
      else
        let t2 := modifyZone f.device (fun v => { v with state := .normal }) t1
        let t3 := endAll (Call.byZone f.device) .withdrawn (publishZones t2)
        (reportZone (ZoneChange.mk f.device w.state .normal (gateShut t2 f.device)
          (.order f.tag f.src)) t3, none)
    else (t, some .state)) s

end Sys2Proof.Machine
end

