-- ==== Sys2Proof/Machine/Interlock.lean ====
section
/-! DEFINITION. The interlock engine (Chapter 3): the six stages of judgement, delivery and forwarding,
the hold queue with its re-evaluation and release; and the call orders of the calling unit. -/

namespace Sys2Proof.Machine

open Sys2Proof

/-! ## Call orders -/

/-- R151: a CALL_START delivered to the calling unit. -/
def deliverCallStart (f : Frame) (s : State) : State × Option SubReason :=
  let go := fun (override : Option ZoneSet) =>
    match startCall f.device (.bridge f.tag f.src) override s with
    | (t, .started _) => (t, none)
    | (t, .notValid) => (t, some SubReason.noSuch)
    | (t, .noRoom) => (t, some SubReason.queueFull)
  match f.args with
  | [] => go none
  | [a, b, c] => go (some (a ++ b ++ c))
  | _ => (s, some .range)

/-- R159: a CALL_END delivered to the calling unit. -/
def deliverCallEnd (f : Frame) (s : State) : State × Option SubReason :=
  if f.args.length ≠ 0 then (s, some .range)
  else if s.calls.any (fun c => decide (c.number = f.device)) then
    (endFirst (fun c => decide (c.number = f.device)) .ended s, none)
  else (s, some .noSuch)

/-! ## Judgement -/

/-- Table 3-2: the axis an axis order names. -/
def axisOf (f : Frame) : AxisId := ⟨f.device % 4, Nat.mod_lt _ (by decide)⟩

/-- R53: an order delivered to its target block; `none` is taken. -/
def deliver (f : Frame) (s : State) : State × Option SubReason := match partRow f.code with
  | .move => deliverMove (axisOf f) f.tag f.args s
  | .axisGo => deliverGo (axisOf f) f.args s
  | .axisStop => deliverStop (axisOf f) f.args s
  | .axisClear => deliverClear (axisOf f) f.args s
  | .zoneAlert => deliverAlert f s
  | .zoneCloseNow => deliverCloseNow f s
  | .zoneCancel => deliverCancel f s
  | .zoneRelease => deliverRelease f s
  | .callStart => deliverCallStart f s
  | .callEnd => deliverCallEnd f s
  | _ => (s, some .noSuch)

/-- R42: whether SAFE lets an order go on. -/
def safeAllows (f : Frame) : Bool :=
  if f.dest = 0 then decide (f.code = 0x22) || decide (0x30 ≤ f.code ∧ f.code ≤ 0x33) ||
    decide (f.code = 0x40 ∨ f.code = 0x41)
  else decide (f.code = 0x10)

/-- R42: the mode check. -/
def modeAllows (m : Mode) (f : Frame) : Bool := match m with
  | .run => true
  | .config => false
  | .safe => safeAllows f

/-- R43: whether an order to the part decodes: its code is one of Table 3-2 and its device number in
the range the table gives. -/
def decodes (f : Frame) : Bool := match partRow f.code with
  | .move => decide (f.device ≤ 3)
  | .axisGo => decide (f.device ≤ 3)
  | .axisStop => decide (f.device ≤ 3)
  | .axisClear => decide (f.device ≤ 3)
  | .zoneAlert => decide (f.device ≤ 15)
  | .zoneCloseNow => decide (f.device ≤ 15)
  | .zoneCancel => decide (f.device ≤ 15)
  | .zoneRelease => decide (f.device ≤ 15)
  | .callStart => decide (f.device ≤ 31)
  | .callEnd => decide (1 ≤ f.device)
  | _ => false

/-- R44: the gate check; `true` is refused. -/
def gateBars (s : State) (f : Frame) : Bool :=
  if f.dest = 0 then
    if (f.code = 0x20 ∨ f.code = 0x21) ∧ f.device ≤ 3 then
      match (getAxis s (axisOf f)).cfg.bind (·.zone) with
      | some z => gateShut s z
      | none => false
    else false
  else if f.code = 0x11 then
    s.doors.any (fun e => decide (e.2.cfg.device = f.device) &&
      (decide (f.dest = 63) || decide (e.2.cfg.station = f.dest.toNat)) && gateShut s e.2.cfg.zone)
  else false

/-- R51, R53: a passed order is forwarded or delivered; the refusal, if the queue or the block
refuses. -/
def passOrder (f : Frame) (s : State) : State × Option RefuseReason :=
  if f.dest = 0 then match deliver f s with
    | (t, none) => (t, none)
    | (t, some x) => (t, some (.target x))
  else match offerOrder f s with
    | (t, true) => (t, none)
    | (t, false) => (t, some .queueFull)

/-- R51: an order that has passed at its taking. -/
def passes (f : Frame) (o : Port) (rule : Option Nat) (notify : Bool) (e : Option Evaluation)
    (s : State) : State :=
  match passOrder f s with
  | (t, some why) => refuse why f o rule e t
  | (t, none) => if notify then reportVerdict .passed f o rule e t else t

/-- R52: an order whose selected bit is 0. -/
def notPassed (f : Frame) (o : Port) (n : Nat) (r : Rule) (e : Evaluation) (s : State) : State :=
  match r.verdict with
  | .refuse => refuse .rule f o (some n) (some e) s
  | .hold =>
    if s.hold.length < Config.holdCap then
      reportVerdict .held f o (some n) (some e) { s with
        hold := s.hold ++ [{ frame := f, origin := o, rule := n, remaining := r.holdLimit, eval := e }] }
    else refuse .holdFull f o (some n) (some e) s

/-- R41: the judgement of a taken order. -/
def judge (f : Frame) (o : Port) (s : State) : State :=
  if modeAllows s.mode f = false then refuse .mode f o none none s
  else if f.dest = 0 ∧ decodes f = false then refuse (.target .noSuch) f o none none s
  else if gateBars s f then refuse .gated f o none none s
  else match lookupRule s o f with
    | none => match s.settings.verdict with
      | .pass => passes f o none false none s
      | .refuse => refuse .default f o none none s
    | some (n, r) =>
      let e := evalRule s r
      if e.2 then passes f o (some n) r.notify (some e.1) s else notPassed f o n r e.1 s

/-! ## The hold queue -/

/-- R55: the entries whose rule is of `due` are due for re-evaluation. -/
def markHeld (due : Rule → Bool) (s : State) : State :=
  { s with hold := s.hold.map (fun h => match Tab.get? s.rules h.rule with
    | some r => { h with marked := h.marked || due r }
    | none => h) }

/-- R56: the release of the entry that has passed. -/
def releaseEntry (h : HoldEntry) (s : State) : State :=
  if gateBars s h.frame then refuse .gated h.frame h.origin (some h.rule) (some h.eval) s
  else match passOrder h.frame s with
    | (t, some why) => refuse why h.frame h.origin (some h.rule) (some h.eval) t
    | (t, none) => reportVerdict .released h.frame h.origin (some h.rule) (some h.eval) t

/-- R55: one due entry, `h`, between the entries `before` and `after` of the queue, is re-evaluated
against the image as it stands: it stays with its latest evaluation, or leaves the queue and is
released. -/
def reevaluate (before : List HoldEntry) (h : HoldEntry) (after : List HoldEntry) (s : State) : State :=
  match Tab.get? s.rules h.rule with
  | none => { s with hold := before ++ { h with marked := false } :: after }
  | some r =>
    let h1 := { h with marked := false, eval := (evalRule s r).1 }
    if (evalRule s r).2 then releaseEntry h1 { s with hold := before ++ after }
    else { s with hold := before ++ h1 :: after }

/-- R55: the due entries are re-evaluated one by one, oldest first, at most `fuel` of them. -/
def reevaluateWith : Nat → State → State
  | 0, s => s
  | fuel + 1, s => match splitFirst (·.marked) s.hold with
    | none => s
    | some (before, h, after) => reevaluateWith fuel (reevaluate before h after s)

/-- R55: every due entry is re-evaluated. -/
def reevaluateHeld (s : State) : State := reevaluateWith s.hold.length s

/-- R55: the interlock engine takes a change event: the entries whose rule reads a named point. -/
def heldOnEvent (names : List Nat) (s : State) : State :=
  reevaluateHeld (markHeld (fun r => r.reads.any (fun n => decide (n ∈ names))) s)

/-- R55, R56: every held order whose rule reads a point is re-evaluated, and those that pass are released
(assumption 2). -/
def releaseHeld (s : State) : State := reevaluateHeld (markHeld (fun r => !r.reads.isEmpty) s)

/-- R57: every entry whose remaining time is 0 is refused, oldest first. -/
def expireHeld (s : State) : State :=
  (s.hold.filter (fun h => decide (h.remaining = 0))).foldl
    (fun t h => refuse .holdExpired h.frame h.origin (some h.rule) (some h.eval) t)
    { s with hold := s.hold.filter (fun h => decide (h.remaining ≠ 0)) }

/-- R46: every entry held under a rule is refused, oldest first. -/
def ruleChanged (n : Nat) (s : State) : State :=
  (s.hold.filter (fun h => decide (h.rule = n))).foldl
    (fun t h => refuse .ruleChanged h.frame h.origin (some h.rule) (some h.eval) t)
    { s with hold := s.hold.filter (fun h => decide (h.rule ≠ n)) }

end Sys2Proof.Machine
end

