-- ==== Sys2Proof/Machine/Events.lean ====
section
/-! DEFINITION. Point change events reach their receivers (R23, R24), first in first out; the order of
the receivers and the bound on one command's events are assumption 4. -/

namespace Sys2Proof.Machine

open Sys2Proof

/-- R24: one change event announced to the interlock engine, the zone block and the door monitor. -/
def takeEvent (names : List Nat) (s : State) : State :=
  doorsOnEvent names (zonesOnEvent names (heldOnEvent names s))

/-- The events are taken, oldest first, until none is left. -/
def settleWith : Nat → State → State
  | 0, s => s
  | fuel + 1, s => match s.events with
    | [] => s
    | e :: rest => settleWith fuel (takeEvent e { s with events := rest })

/-- Every change event made so far is taken, with those the receivers make in their turn. -/
def settle (s : State) : State := settleWith Config.eventFuel s

end Sys2Proof.Machine
end

