-- ==== Sys2Proof/Machine/TableCodec.lean ====
section
/-! DEFINITION. Table records as bytes (R175, Table 9-3): each record's fields in the order of its
table, read with the range checks of its chapter and written for READ_ENTRY. A reader answers `none`
for RANGE. -/

namespace Sys2Proof.Machine

open Sys2Proof

/-! ## Fields -/

/-- One byte of a record. -/
def byteAt (bs : List Byte) (k : Nat) : Nat := fieldAt bs k 1

/-- R175: 1 for yes and 0 for no; any other byte is out of range (assumption 10). -/
def readYesNo (n : Nat) : Option Bool := if n = 0 then some false else if n = 1 then some true else none

/-- A number that must lie in a range. -/
def inRange (lo hi n : Nat) : Option Nat := if lo ≤ n ∧ n ≤ hi then some n else none

/-- One byte, FFh for absent, otherwise at most `hi`. -/
def readOpt (hi n : Nat) : Option (Option Nat) :=
  if n = 255 then some none else if n ≤ hi then some (some n) else none

/-- Two bytes, FFFFh for absent, otherwise at most `hi`. -/
def readOptWord (hi n : Nat) : Option (Option Nat) :=
  if n = 65535 then some none else if n ≤ hi then some (some n) else none

/-- R175: the side or origin of a port, 0 for B and 1 for D. -/
def readPort (n : Nat) : Option Port := if n = 0 then some .b else if n = 1 then some .d else none

/-- The element of an enumeration with a number. -/
def readEnum {α : Type} (values : List α) (n : Nat) : Option α := values[n]?

/-- Table 3-5, in the order listed. -/
def conds : List Cond := [.always, .never, .eq, .ne, .gt, .ge, .lt, .le]
/-- R45, in the order listed. -/
def policies : List StalePolicy := [.asFalse, .asTrue, .useValue]
/-- Table 5-1, in the order listed. -/
def sources : List Source := [.cp, .fp, .absFe, .travel]
/-- Table 5-1: the qualifiers that are numbered, in the order listed; ANY is FFh (R175; assumption 35). -/
def qualifiers : List Qualifier := [.up, .down]
/-- Table 5-1, in the order listed. -/
def actions : List CompAction := [.none, .report, .slowStop, .quickStop, .flag, .latch]

/-- The number of an element of an enumeration. -/
def enumCode {α : Type} [DecidableEq α] (values : List α) (a : α) : List Byte :=
  byte1 (values.findIdx (fun b => decide (b = a)))

/-- R175: a qualifier byte; ANY stands as all ones. -/
def readQualifier (n : Nat) : Option Qualifier := if n = 255 then some .any else readEnum qualifiers n

/-- R175: the byte of a qualifier. -/
def qualifierByte (q : Qualifier) : List Byte := match q with
  | .any => [0xFF]
  | .up => enumCode qualifiers .up
  | .down => enumCode qualifiers .down

/-! ## Terms (R48, R175) -/

/-- A term of 8 bytes from byte `off` on; a point above 767 that is not NONE is out of range. -/
def readTerm (bs : List Byte) (off : Nat) : Option Term := do
  let point ← readOptWord 767 (fieldAt bs off 2)
  let cond ← readEnum conds (byteAt bs (off + 4))
  let stale ← readEnum policies (byteAt bs (off + 7))
  pure { point := point, mask := BitVec.ofNat 16 (fieldAt bs (off + 2) 2), cond := cond
         value := BitVec.ofNat 16 (fieldAt bs (off + 5) 2), stale := stale }

/-- The 8 bytes of a term. -/
def termBytes (t : Term) : List Byte :=
  optWord t.point ++ beBytes 2 t.mask.toNat ++ enumCode conds t.cond ++ beBytes 2 t.value.toNat ++
    enumCode policies t.stale

/-- 00_scope.md 6.5: a point number that is not assigned. -/
def unassigned (n : Nat) : Bool := decide (699 ≤ n ∧ n ≤ 767)

/-- Whether a term names an unassigned point. -/
def Term.unassigned (t : Term) : Bool := t.point.any Machine.unassigned

/-! ## Records -/

/-- R19: a Station Table record; `none` inside is an invalid entry. -/
def readStation (bs : List Byte) : Option (Option StationEntry) := do
  let valid ← readYesNo (byteAt bs 0)
  let side ← readPort (byteAt bs 1)
  let limit ← inRange 1 50 (byteAt bs 2)
  pure (if valid then some { side := side, limit := limit } else none)

/-- R19: its bytes. -/
def stationBytes (e : StationEntry) : List Byte := yesNo true ++ byte1 (portCode e.side) ++ byte1 e.limit

/-- R25: a Point Map record. The point may still be unassigned. -/
def readMap (bs : List Byte) : Option MapEntry := do
  let station ← inRange 1 62 (byteAt bs 1)
  let point ← (if 512 ≤ fieldAt bs 3 2 ∧ fieldAt bs 3 2 ≤ 698 then none
    else inRange 0 767 (fieldAt bs 3 2))
  let limit ← inRange 1 600 (fieldAt bs 5 2)
  let retention ← readEnum [Retention.keep, .clear] (byteAt bs 7)
  pure { station := station, slot := byteAt bs 2, point := point, limit := limit
         retention := retention }

/-- R25: its bytes. -/
def mapBytes (e : MapEntry) : List Byte :=
  yesNo true ++ byte1 e.station ++ byte1 e.slot ++ beBytes 2 e.point ++ beBytes 2 e.limit ++
    enumCode [Retention.keep, .clear] e.retention

/-- R45: the mode selector, NONE by its point (assumption 8). -/
def readSelector (bs : List Byte) (off : Nat) : Option (Option (Nat × Nat)) := do
  let point ← readOptWord 767 (fieldAt bs off 2)
  match point with
  | none => pure none
  | some n => do
    let b ← inRange 0 15 (byteAt bs (off + 2))
    pure (some (n, b))

/-- R45: an interlock rule record. -/
def readRule (bs : List Byte) : Option Rule := do
  let origin ← (if byteAt bs 1 = 255 then some none else (readPort (byteAt bs 1)).map some)
  let dest ← readOpt 63 (byteAt bs 2)
  let code ← readOptWord 255 (fieldAt bs 3 2)
  let t0 ← readTerm bs 7
  let t1 ← readTerm bs 15
  let t2 ← readTerm bs 23
  let t3 ← readTerm bs 31
  let selector ← readSelector bs 43
  let verdict ← readEnum [FalseVerdict.refuse, .hold] (byteAt bs 46)
  let holdLimit ← inRange (if verdict = .hold then 1 else 0) 600 (fieldAt bs 47 2)
  let notify ← readYesNo (byteAt bs 49)
  if byteAt bs 5 ≤ byteAt bs 6 then
    pure { origin := origin, dest := dest, code := code, devLow := byteAt bs 5
           devHigh := byteAt bs 6, t0 := t0, t1 := t1, t2 := t2, t3 := t3
           tt1 := BitVec.ofNat 16 (fieldAt bs 39 2), tt0 := BitVec.ofNat 16 (fieldAt bs 41 2)
           selector := selector, verdict := verdict, holdLimit := holdLimit, notify := notify }
  else none

/-- R45: its bytes. -/
def ruleBytes (r : Rule) : List Byte :=
  yesNo true ++ optByte (r.origin.map portCode) ++ optByte r.dest ++ optWord r.code ++
    byte1 r.devLow ++ byte1 r.devHigh ++ termBytes r.t0 ++ termBytes r.t1 ++ termBytes r.t2 ++
    termBytes r.t3 ++ beBytes 2 r.tt1.toNat ++ beBytes 2 r.tt0.toNat ++
    optWord (r.selector.map (·.1)) ++ optByte (r.selector.map (·.2)) ++
    enumCode [FalseVerdict.refuse, .hold] r.verdict ++ beBytes 2 r.holdLimit ++ yesNo r.notify

/-- R89: a comparator record of 7 bytes. -/
def readComparator (bs : List Byte) (off : Nat) : Option Comparator := do
  let source ← readEnum sources (byteAt bs off)
  let cond ← readEnum conds (byteAt bs (off + 1))
  let qualifier ← readQualifier (byteAt bs (off + 5))
  let action ← readEnum actions (byteAt bs (off + 6))
  pure { source := source, cond := cond, value := toSigned 3 (fieldAt bs (off + 2) 3)
         qualifier := qualifier, action := action }

/-- R89: its bytes. -/
def comparatorBytes (c : Comparator) : List Byte :=
  enumCode sources c.source ++ enumCode conds c.cond ++ beSigned 3 c.value ++
    qualifierByte c.qualifier ++ enumCode actions c.action

/-- R62: the coupling, NONE by its leader byte (assumption 8). -/
def readCoupling (bs : List Byte) (off : Nat) (self : Nat) : Option (Option Coupling) :=
  if byteAt bs off = 255 then some none
  else if h : byteAt bs off < 4 then
    if byteAt bs off = self then none
    else do
      let nf ← inRange 1 4095 (fieldAt bs (off + 1) 2)
      let nl ← inRange nf 4095 (fieldAt bs (off + 3) 2)
      let sense ← inRange 0 1 (byteAt bs (off + 5))
      pure (some { leader := ⟨byteAt bs off, h⟩, nf := nf, nl := nl, opposite := decide (sense = 1) })
  else none

/-- R62: the bytes of a coupling. -/
def couplingBytes : Option Coupling → List Byte
  | none => [0xFF, 0xFF, 0xFF, 0xFF, 0xFF, 0xFF]
  | some k => byte1 k.leader.val ++ beBytes 2 k.nf ++ beBytes 2 k.nl ++ yesNo k.opposite

/-- R62: the Axis Configuration record of axis `self`. -/
def readAxis (self : Nat) (bs : List Byte) : Option AxisCfg := do
  let zone ← readOpt 15 (byteAt bs 1)
  let vmax ← inRange 1 4000 (fieldAt bs 8 2)
  let trip ← inRange 1 32767 (fieldAt bs 10 2)
  let policy ← readEnum [HoldPolicy.keep, .flush] (byteAt bs 12)
  let warning ← readOpt 31 (byteAt bs 13)
  let coupling ← readCoupling bs 14 self
  let scale ← inRange 0 15 (byteAt bs 20)
  let c0 ← readComparator bs 21
  let c1 ← readComparator bs 28
  let c2 ← readComparator bs 35
  let c3 ← readComparator bs 42
  if toSigned 3 (fieldAt bs 2 3) < toSigned 3 (fieldAt bs 5 3) then
    pure { zone := zone, low := toSigned 3 (fieldAt bs 2 3), high := toSigned 3 (fieldAt bs 5 3)
           vmax := vmax, trip := trip, policy := policy, warning := warning, coupling := coupling
           scale := scale, comps := #v[c0, c1, c2, c3] }
  else none

/-- R62: its bytes. -/
def axisBytes (c : AxisCfg) : List Byte :=
  yesNo true ++ optByte c.zone ++ beSigned 3 c.low ++ beSigned 3 c.high ++ beBytes 2 c.vmax ++
    beBytes 2 c.trip ++ enumCode [HoldPolicy.keep, .flush] c.policy ++ optByte c.warning ++
    couplingBytes c.coupling ++ byte1 c.scale ++ comparatorBytes c.comps[0] ++
    comparatorBytes c.comps[1] ++ comparatorBytes c.comps[2] ++ comparatorBytes c.comps[3]

/-- A proof point of the Door Table (R107 check 1); it may still be unassigned. -/
def readProof (n : Nat) : Option Nat := if 512 ≤ n ∧ n ≤ 698 then none else inRange 0 767 n

/-- R107: a Door Table record. -/
def readDoor (bs : List Byte) : Option DoorCfg := do
  let station ← inRange 1 62 (byteAt bs 1)
  let device ← inRange 0 15 (byteAt bs 2)
  let closed ← readProof (fieldAt bs 3 2)
  let opened ← readProof (fieldAt bs 5 2)
  let zone ← inRange 0 15 (byteAt bs 7)
  let rank ← inRange 1 15 (byteAt bs 8)
  let limit ← inRange 1 600 (fieldAt bs 9 2)
  let kind ← readEnum [DoorKind.fire, .shell] (byteAt bs 11)
  pure { station := station, device := device, closedPoint := closed, openPoint := opened
         zone := zone, rank := rank, limit := limit, kind := kind }

/-- R107: its bytes. -/
def doorBytes (c : DoorCfg) : List Byte :=
  yesNo true ++ byte1 c.station ++ byte1 c.device ++ beBytes 2 c.closedPoint ++
    beBytes 2 c.openPoint ++ byte1 c.zone ++ byte1 c.rank ++ beBytes 2 c.limit ++ byte1 c.kind.code

/-- R123: the Zone Table record of zone `self`. -/
def readZone (self : Nat) (bs : List Byte) : Option ZoneCfg := do
  let parent ← readOpt 15 (byteAt bs 1)
  let alertTime ← inRange 0 600 (fieldAt bs 2 2)
  let template ← readOpt 31 (byteAt bs 4)
  let program ← readOpt 31 (byteAt bs 5)
  let reclose ← inRange 10 600 (fieldAt bs 6 2)
  let policy ← readEnum [RestartPolicy.rerun, .conclude] (byteAt bs 8)
  let trigger ← readTerm bs 9
  if parent = some self then none
  else pure { parent := parent, alertTime := alertTime, alertTemplate := template
              program := program, reclose := reclose, policy := policy, trigger := trigger }

/-- R123: its bytes. -/
def zoneBytes (c : ZoneCfg) : List Byte :=
  yesNo true ++ optByte c.parent ++ beBytes 2 c.alertTime ++ optByte c.alertTemplate ++
    optByte c.program ++ beBytes 2 c.reclose ++
    enumCode [RestartPolicy.rerun, .conclude] c.policy ++ termBytes c.trigger

/-- R135: a program step in its 10-byte slot. -/
def readStep (bs : List Byte) (off : Nat) : Option ProgStep :=
  let b := fun k => byteAt bs (off + k)
  match b 0 with
  | 1 => (inRange 1 15 (b 1)).map .close
  | 2 => do
    let r ← inRange 1 15 (b 1)
    let n ← inRange 1 600 (fieldAt bs (off + 2) 2)
    pure (.await r n)
  | 3 => (inRange 1 255 (b 1)).map .pause10
  | 4 => (inRange 1 600 (fieldAt bs (off + 1) 2)).map .pause100
  | 5 => (inRange 0 31 (b 1)).map .call
  | 6 => do
    let st ← inRange 1 63 (b 1)
    pure (.order st (b 2) (b 3) (BitVec.ofNat 16 (fieldAt bs (off + 4) 2)))
  | 7 => some .halt
  | 8 => do
    let t ← readTerm bs (off + 1)
    let target ← inRange 1 16 (b 9)
    pure (.branch t target)
  | 9 => some .finish
  | _ => none

/-- `n` steps from slot `k` on. -/
def readSteps (bs : List Byte) : Nat → Nat → Option (List ProgStep)
  | 0, _ => some []
  | n + 1, k => do
    let step ← readStep bs (2 + 10 * k)
    let rest ← readSteps bs n (k + 1)
    pure (step :: rest)

/-- R135: a Program Table record. -/
def readProgram (bs : List Byte) : Option (List ProgStep) := do
  let count ← inRange 1 16 (byteAt bs 1)
  readSteps bs count 0

/-- A list of bytes filled with 0 up to a length. -/
def padTo (n : Nat) (bs : List Byte) : List Byte := bs ++ List.replicate (n - bs.length) 0

/-- R135: the 10-byte slot of a step. -/
def stepBytes (p : ProgStep) : List Byte := padTo 10 (match p with
  | .close r => byte1 1 ++ byte1 r
  | .await r n => byte1 2 ++ byte1 r ++ beBytes 2 n
  | .pause10 n => byte1 3 ++ byte1 n
  | .pause100 n => byte1 4 ++ beBytes 2 n
  | .call t => byte1 5 ++ byte1 t
  | .order st c d w => byte1 6 ++ byte1 st ++ byte1 c ++ byte1 d ++ beBytes 2 w.toNat
  | .halt => byte1 7
  | .branch t target => byte1 8 ++ termBytes t ++ byte1 target
  | .finish => byte1 9)

/-- R135: the bytes of a program. -/
def programBytes (p : List ProgStep) : List Byte :=
  padTo 162 (yesNo true ++ byte1 p.length ++ p.flatMap stepBytes)

/-- Whether a step's term names an unassigned point. -/
def ProgStep.unassigned : ProgStep → Bool
  | .branch t _ => t.unassigned
  | _ => false

/-- R148: the source of a template: its kind, then the channel or pattern. -/
def readSource (kind n : Nat) : Option CallSource :=
  if 7 < n then none
  else if kind = 0 then some (.voice n)
  else if kind = 1 then some (.tone n)
  else none

/-- R148: a Call Template record. -/
def readTemplate (bs : List Byte) : Option Template := do
  let priority ← inRange 0 4 (byteAt bs 1)
  let source ← readSource (byteAt bs 2) (byteAt bs 3)
  let preChime ← readYesNo (byteAt bs 7)
  let duration ← inRange 0 600 (fieldAt bs 8 2)
  let gain ← inRange 0 64 (byteAt bs 10)
  pure { priority := priority, source := source, zones := BitVec.ofNat 24 (fieldAt bs 4 3)
         preChime := preChime, duration := duration, gain := gain }

/-- R148: the two bytes of a source. -/
def sourceBytes : CallSource → List Byte
  | .voice n => byte1 0 ++ byte1 n
  | .tone n => byte1 1 ++ byte1 n

/-- R148: its bytes. -/
def templateBytes (t : Template) : List Byte :=
  yesNo true ++ byte1 t.priority ++ sourceBytes t.source ++ beBytes 3 t.zones.toNat ++
    yesNo t.preChime ++ beBytes 2 t.duration ++ byte1 t.gain

/-- R149: an Audio Zone record; `none` inside is an invalid entry. -/
def readAudioZone (bs : List Byte) : Option (Option AudioZone) := do
  let valid ← readYesNo (byteAt bs 0)
  let gain ← inRange 0 64 (byteAt bs 1)
  let warnings ← readYesNo (byteAt bs 2)
  pure (if valid then some { gain := gain, warnings := warnings } else none)

/-- R149: its bytes. -/
def audioZoneBytes (z : AudioZone) : List Byte := yesNo true ++ byte1 z.gain ++ yesNo z.warnings

/-- R179: a Fault Response record. -/
def readResponse (bs : List Byte) : Option Response := readEnum [Response.goOn, .safe] (byteAt bs 0)

/-- R179: its byte. -/
def responseBytes (r : Response) : List Byte := enumCode [Response.goOn, .safe] r

/-- R181: the settings record. -/
def readSettings (bs : List Byte) : Option Settings := do
  let manager ← inRange 1 62 (byteAt bs 0)
  let verdict ← readEnum [DefaultVerdict.pass, .refuse] (byteAt bs 1)
  let silence ← inRange 1 50 (byteAt bs 2)
  let threshold ← inRange 1 255 (byteAt bs 3)
  let lost ← inRange 500 5000 (fieldAt bs 4 2)
  pure { manager := manager, verdict := verdict, silenceLimit := silence, errThreshold := threshold
         sourceLost := lost }

/-- R181: its bytes. -/
def settingsBytes (x : Settings) : List Byte :=
  byte1 x.manager ++ enumCode [DefaultVerdict.pass, .refuse] x.verdict ++ byte1 x.silenceLimit ++
    byte1 x.errThreshold ++ beBytes 2 x.sourceLost

/-! ## Tables (Table 9-3) -/

/-- The record length of a table. -/
def recordLength (t : Nat) : Nat := match t with
  | 0 => 3
  | 1 => 8
  | 2 => 50
  | 3 => 49
  | 4 => 12
  | 5 => 17
  | 6 => 162
  | 7 => 11
  | 8 => 3
  | 9 => 1
  | _ => 6

/-- R166 check 1: whether a table code and an index lie in their ranges. -/
def indexOk (t i : Nat) : Bool := match t with
  | 0 => decide (1 ≤ i ∧ i ≤ 62)
  | 1 => decide (i ≤ 511)
  | 2 => decide (i ≤ 255)
  | 3 => decide (i ≤ 3)
  | 4 => decide (i ≤ 95)
  | 5 => decide (i ≤ 15)
  | 6 => decide (i ≤ 31)
  | 7 => decide (i ≤ 31)
  | 8 => decide (i ≤ 23)
  | 9 => decide (i ≤ 7)
  | 10 => decide (i = 0)
  | _ => false

/-- Table 9-4: whether a table is writable in a mode. -/
def writable (t : Nat) (m : Mode) : Bool :=
  decide (m = .config) || decide (t ∈ [0, 1, 2, 7, 8])

/-- Axis number of an index of the Axis Configuration table. -/
def axisId (i : Nat) : AxisId := ⟨i % 4, Nat.mod_lt _ (by decide)⟩

/-- The record of an entry; an invalid entry has none. -/
def entryBytes (s : State) (t i : Nat) : Option (List Byte) := match t with
  | 0 => (getStation s i).entry.map stationBytes
  | 1 => (Tab.get? s.pointMap i).map mapBytes
  | 2 => (Tab.get? s.rules i).map ruleBytes
  | 3 => (getAxis s (axisId i)).cfg.map axisBytes
  | 4 => (Tab.get? s.doors i).map (fun x => doorBytes x.cfg)
  | 5 => (Tab.get? s.zones i).map (fun w => zoneBytes w.cfg)
  | 6 => (Tab.get? s.programs i).map programBytes
  | 7 => (Tab.get? s.templates i).map templateBytes
  | 8 => (Tab.get? s.audioZones i).map audioZoneBytes
  | 9 => (s.responses[i]?).map responseBytes
  | _ => some (settingsBytes s.settings)

/-- R169: the record as it is read; an invalid entry reads as 0 throughout. -/
def readBack (s : State) (t i : Nat) : List Byte :=
  (entryBytes s t i).getD (List.replicate (recordLength t) 0)

end Sys2Proof.Machine
end

