-- ==== Sys2Proof/Machine/Manage.lean ====
section
/-! DEFINITION. The management unit (Chapter 9): accepting MANAGE frames, direct and queued requests,
reading, and replies. -/

namespace Sys2Proof.Machine

open Sys2Proof

/-- R170: one REPLY report. -/
def reply (code tag : Byte) (result : ReplyResult) (data : List Byte) (s : State) : State :=
  routine (.reply code tag result data) s

/-- R170: the REPLY of a request. -/
def replyTo (r : Request) (result : ReplyResult) (data : List Byte) (s : State) : State :=
  reply (BitVec.ofNat 8 r.body.code) r.tag result data s

/-! ## Reading (R169, Table 9-8) -/

/-- Table 9-8: the quality of a point. -/
def Quality.code : Quality → Nat
  | .never => 0
  | .fresh => 1
  | .stale => 2
  | .forced => 3

/-- Table 9-8: qualities packed four to a byte, the first in bits 7-6. -/
def packQualities : List Nat → List Byte
  | [] => []
  | [a] => byte1 (a * 64)
  | [a, b] => byte1 (a * 64 + b * 16)
  | [a, b, c] => byte1 (a * 64 + b * 16 + c * 4)
  | a :: b :: c :: d :: rest => byte1 (a * 64 + b * 16 + c * 4 + d) ++ packQualities rest

/-- READ_ENTRY. -/
def serveEntry (t i part : Nat) (s : State) : ReplyResult × List Byte :=
  if indexOk t i = false ∨ recordLength t ≤ 64 * part then (.range, [])
  else (.ok, byte1 t ++ beBytes 2 i ++ byte1 part ++
    yesNo (decide (recordLength t ≤ 64 * (part + 1))) ++ ((readBack s t i).drop (64 * part)).take 64)

/-- READ_POINTS. -/
def servePoints (first count : Nat) (s : State) : ReplyResult × List Byte :=
  if count < 1 ∨ 16 < count ∨ Config.lastPoint < first + count - 1 then (.range, [])
  else
    let ps := (List.range count).map (fun k => getPoint s (first + k))
    (.ok, beBytes 2 first ++ byte1 count ++ packQualities (ps.map (fun p => p.quality.code)) ++
      ps.flatMap (fun p => beBytes 2 p.value.toNat ++ beBytes 2 p.age))

/-- Table 9-8: the bridge state. -/
def BridgeState.code : BridgeState → Nat
  | .awaiting => 0
  | .heard => 1
  | .silent => 2

/-- READ_STATUS section 0. -/
def generalStatus (s : State) : List Byte :=
  byte1 0 ++ byte1 s.mode.code ++ [activeSet s] ++ byte1 s.link.bridge.code ++
    byte1 s.hold.length ++ byte1 s.manage.length ++ byte1 s.reports.length ++
    byte1 s.link.safety.length ++ byte1 s.link.voice.length ++ byte1 s.link.forward.length ++
    byte1 s.link.dToB.length ++ allAxes.flatMap (fun a => byte1 (getAxis s a).state.code) ++
    (List.range 16).flatMap (fun z => optByte ((Tab.get? s.zones z).map (fun w => w.state.code))) ++
    byte1 s.calls.length ++ beBytes 2 s.link.errB ++ beBytes 2 s.link.errD

/-- READ_STATUS sections 1 to 4. -/
def axisStatus (n : Nat) (s : State) : List Byte :=
  let x := getAxis s (axisId (n - 1))
  byte1 n ++ byte1 x.state.code ++ byte1 x.phase.code ++ byte1 (FaultCause.code x.cause) ++
    yesNo x.latch ++ byte1 x.depth ++ beSigned 3 x.cp ++ beSigned 3 x.fp ++ beSigned 2 x.fe ++
    beBytes 4 x.travel.toNat ++ beSigned 3 x.latchCP ++ beSigned 3 x.latchFP ++ byte1 x.latchCount

/-- READ_STATUS. -/
def serveStatus (n : Nat) (s : State) : ReplyResult × List Byte :=
  if n = 0 then (.ok, generalStatus s)
  else if n ≤ 4 then (.ok, axisStatus n s)
  else (.range, [])

/-- R169: a read answered from the state as it stands. -/
def serve (b : ReqBody) (s : State) : ReplyResult × List Byte := match b with
  | .readEntry t i part => serveEntry t i part s
  | .readPoints first count => servePoints first count s
  | .readStatus n => serveStatus n s
  | _ => (.invalid, [])

/-! ## Accepting (R163, R164) -/

/-- R164: a request to be queued. -/
def enqueue (r : Request) (s : State) : State :=
  if s.manage.length < Config.manageCap then { s with manage := s.manage ++ [r] }
  else replyTo r .busy [] s

/-- R164: a request is served directly or queued. -/
def handleRequest (r : Request) (s : State) : State :=
  if r.body.direct = true ∧ r.fence = false then
    replyTo r (serve r.body s).1 (serve r.body s).2 s
  else enqueue r s

/-- R163: a MANAGE frame addressed to station 0. -/
def acceptManage (p : Port) (f : Frame) (s : State) : State :=
  if p = .b ∧ f.src.toNat = s.settings.manager then match decodeManage f.payload with
    | .short => reply 0 0 .range [] s
    | .unknown code tag => reply code tag .invalid [] s
    | .badLength code tag => reply code tag .range [] s
    | .request r => handleRequest r s
  else routine (.link (.manageSource f.src p)) s

/-! ## Completion (R165) -/

/-- R165: the request at the head completes with its effect; the REPLY is queued and the request
leaves the queue. The change events of the effect are taken before the REPLY is queued (assumption 47). -/
def completeHead (r : Request) (effect : State → State × ReplyResult × List Byte) (s : State) : State :=
  let e := effect s
  let t := replyTo r e.2.1 e.2.2 (settle e.1)
  { t with manage := t.manage.tail }

/-- R165: the completion of a fenced read. -/
def completeRead (wanted : ReqBody → Bool) (s : State) : State := match s.manage with
  | r :: _ => if wanted r.body then completeHead r (fun t => (t, serve r.body t)) s else s
  | [] => s

end Sys2Proof.Machine
end

