-- ==== Sys2Proof/Machine/Tables.lean ====
section
/-! DEFINITION. What an accepted write or clear of a table entry does (R166, R167 and the owning
chapters), the validation on leaving CONFIG (R177), and SET_MODE (R176, R180). -/

namespace Sys2Proof.Machine

open Sys2Proof

/-! ## Effects on the owning blocks -/

/-- R19: a Station Table entry is written or cleared. -/
def putStationEntry (n : Nat) (e : Option StationEntry) (s : State) : State :=
  let old := getStation s n
  let t := putStation n { entry := e, silenceFlag := old.silenceFlag } s
  if old.state = .silent then tell [.stationSilent] (.station n) t else t

/-- R26: a Point Map entry is written or cleared; its old target becomes NEVER unless FORCED. -/
def putMapEntry (n : Nat) (e : Option MapEntry) (s : State) : State :=
  let t := { s with pointMap := match e with
    | some m => Tab.set s.pointMap n m
    | none => Tab.erase s.pointMap n }
  match Tab.get? s.pointMap n with
  | none => t
  | some old =>
    if (getPoint s old.point).quality = .forced then t
    else setImage (putPoint s.points old.point {}) [old.point] t

/-- R46: a rule is written or cleared. -/
def putRule (n : Nat) (e : Option Rule) (s : State) : State :=
  ruleChanged n { s with rules := match e with
    | some r => Tab.set s.rules n r
    | none => Tab.erase s.rules n }

/-- Table 4-2: an Axis Configuration record is written. -/
def writeAxis (a : AxisId) (c : AxisCfg) (s : State) : State :=
  let x := getAxis s a
  let y : Axis := { x with cfg := some c, prev := #v[false, false, false, false] }
  publishAxis a [0, 4] (setAxis a
    (if x.state = .disabled then { y with state := .idle, cp := x.fp, fe := 0 } else y) s)

/-- Table 4-2: an Axis Configuration record is cleared. -/
def clearAxis (a : AxisId) (s : State) : State :=
  let x := getAxis s a
  let t := publishAxis a [0, 1, 4, 6] (setAxis a { x with
    cfg := none, state := .disabled, phase := .none, cause := none, current := none, stop := none
    pending := [], run := none, latch := false, pulses := 0
    prev := #v[false, false, false, false] } s)
  if x.state = .fault then tell [.axisTrip, .axisDrive] (.axis a) t else t

/-- R108, R115: a Door Table entry is written; the door's state is derived afresh, without a report, and
mode control is told once, after that derivation (assumption 38). -/
def writeDoor (d : Nat) (c : DoorCfg) (s : State) : State :=
  let x := deriveDoor s { cfg := c }
  tell [.doorJammed, .doorSensor] (.door d)
    (writePoints [(Config.doorPoint d, x.state.code)] (setDoor d x s))

/-- R108: a Door Table entry is cleared. -/
def clearDoor (d : Nat) (s : State) : State :=
  tell [.doorJammed, .doorSensor] (.door d)
    (clearPoints [Config.doorPoint d] { s with doors := Tab.erase s.doors d })

/-- R123, R126: a Zone Table entry is written; the zone is NORMAL and its trigger is evaluated. -/
def writeZone (z : Nat) (c : ZoneCfg) (s : State) : State :=
  evalTrigger z (publishZones (setZone z { cfg := c } s))

/-- R123: a Zone Table entry is cleared. -/
def clearZone (z : Nat) (s : State) : State :=
  clearPoints [Config.zonePoint z, Config.gatePoint z] { s with zones := Tab.erase s.zones z }

/-- R149: the requested sets of the DECK_WARNING calls worked out afresh; ownership is recomputed if
one changes. -/
def refreshRequests (s : State) : State :=
  let cs := s.calls.map (fun c =>
    if c.priority = 3 then { c with requested := requestedSet s.audioZones 3 c.base } else c)
  if cs.map (·.requested) = s.calls.map (·.requested) then s else recompute { s with calls := cs }

/-- R149: an Audio Zone Table entry is written or cleared. -/
def putAudioZone (n : Nat) (e : Option AudioZone) (s : State) : State :=
  refreshRequests { s with audioZones := match e with
    | some z => Tab.set s.audioZones n z
    | none => Tab.erase s.audioZones n }

/-- R179: a Fault Response Table entry is set. -/
def putResponse (n : Nat) (r : Response) (s : State) : State :=
  { s with responses := s.responses.set (n % 8) r (Nat.mod_lt _ (by decide)) }

/-- R148: whether a call of a template is in the call list. -/
def templateInUse (t : Nat) (s : State) : Bool := s.calls.any (fun c => decide (c.template = t))

/-! ## The owning tables' checks (R166 check 4) -/

/-- R25 check 3: another entry names the same station and slot, or the same point. -/
def mapClash (n : Nat) (m : MapEntry) (s : State) : Bool :=
  s.pointMap.any (fun e => decide (e.1 ≠ n) &&
    ((decide (e.2.station = m.station) && decide (e.2.slot = m.slot)) ||
      decide (e.2.point = m.point)))

/-- R107 check 4: another entry names the same station and device index. -/
def doorClash (d : Nat) (c : DoorCfg) (s : State) : Bool :=
  s.doors.any (fun e => decide (e.1 ≠ d) && decide (e.2.cfg.station = c.station) &&
    decide (e.2.cfg.device = c.device))

/-- R45 check 2: a term point or the mode selector point is not assigned. -/
def Rule.unassigned (r : Rule) : Bool := r.reads.any Machine.unassigned

/-- R166: an entry is cleared. For the Fault Response Table and the settings record a clear returns the
power-on value. -/
def clearTable (t i : Nat) (s : State) : State × ReplyResult := match t with
  | 0 => (putStationEntry i none s, .ok)
  | 1 => (putMapEntry i none s, .ok)
  | 2 => (putRule i none s, .ok)
  | 3 => (clearAxis (axisId i) s, .ok)
  | 4 => (clearDoor i s, .ok)
  | 5 => (clearZone i s, .ok)
  | 6 => ({ s with programs := Tab.erase s.programs i }, .ok)
  | 7 => if templateInUse i s then (s, .inUse)
      else ({ s with templates := Tab.erase s.templates i }, .ok)
  | 8 => (putAudioZone i none s, .ok)
  | 9 => (putResponse i .goOn s, .ok)
  | _ => ({ s with settings := {} }, .ok)

/-- R166 check 4: a record written with valid (or enabled) = yes meets its table's checks and is
entered. A program record that fails both of R135's checks is answered RANGE (assumption 42). -/
def writeValid (t i : Nat) (bs : List Byte) (s : State) : State × ReplyResult := match t with
  | 1 => match readMap bs with
    | none => (s, .range)
    | some m =>
      if unassigned m.point = true ∨ mapClash i m s = true then (s, .invalid)
      else (putMapEntry i (some m) s, .ok)
  | 2 => match readRule bs with
    | none => (s, .range)
    | some r => if r.unassigned then (s, .invalid) else (putRule i (some r) s, .ok)
  | 3 => match readAxis i bs with
    | none => (s, .range)
    | some c => (writeAxis (axisId i) c s, .ok)
  | 4 => match readDoor bs with
    | none => (s, .range)
    | some c =>
      if unassigned c.closedPoint = true ∨ unassigned c.openPoint = true ∨
          c.closedPoint = c.openPoint ∨ doorClash i c s = true then (s, .invalid)
      else (writeDoor i c s, .ok)
  | 5 => match readZone i bs with
    | none => (s, .range)
    | some c => if c.trigger.unassigned then (s, .invalid) else (writeZone i c s, .ok)
  | 6 => match readProgram bs with
    | none => (s, .range)
    | some p =>
      if p.any ProgStep.unassigned then (s, .invalid)
      else ({ s with programs := Tab.set s.programs i p }, .ok)
  | _ => match readTemplate bs with
    | none => (s, .range)
    | some x =>
      if templateInUse i s then (s, .inUse)
      else ({ s with templates := Tab.set s.templates i x }, .ok)

/-- R166 check 4: a record of the right length written to its table. -/
def writeTable (t i : Nat) (bs : List Byte) (s : State) : State × ReplyResult := match t with
  | 0 => match readStation bs with
    | none => (s, .range)
    | some e => (putStationEntry i e s, .ok)
  | 8 => match readAudioZone bs with
    | none => (s, .range)
    | some e => (putAudioZone i e s, .ok)
  | 9 => match readResponse bs with
    | none => (s, .range)
    | some r => (putResponse i r s, .ok)
  | 10 => match readSettings bs with
    | none => (s, .range)
    | some x => ({ s with settings := x }, .ok)
  | _ => match readYesNo (byteAt bs 0) with
    | none => (s, .range)
    | some false => clearTable t i s
    | some true => writeValid t i bs s

/-- R166: an assembled record is checked and written. -/
def writeRecord (t i : Nat) (bs : List Byte) (s : State) : State × ReplyResult :=
  if indexOk t i = false then (s, .range)
  else if writable t s.mode = false then (s, .mode)
  else if bs.length ≠ recordLength t then (s, .range)
  else writeTable t i bs s

/-- R166: the effect of a CLEAR_ENTRY. -/
def clearRecord (t i : Nat) (s : State) : State × ReplyResult :=
  if indexOk t i = false then (s, .range)
  else if writable t s.mode = false then (s, .mode)
  else clearTable t i s

/-- R167: whether a part continues the staging record. -/
def stagingMatches (g : Option Staging) (t i part : Nat) : Option Staging := match g with
  | some x => if x.table = t ∧ x.index = i ∧ x.nextPart = part then some x else none
  | none => none

/-- R167: the effect of a WRITE_ENTRY. -/
def writePart (t i part : Nat) (bs : List Byte) (more : Bool) (s : State) : State × ReplyResult :=
  if part = 0 then
    if more then
      if indexOk t i then
        ({ s with staging := some { table := t, index := i, nextPart := 1, bytes := bs } }, .ok)
      else ({ s with staging := none }, .range)
    else writeRecord t i bs s
  else match stagingMatches s.staging t i part with
    | none => ({ s with staging := none }, .invalid)
    | some g =>
      let all := g.bytes ++ bs
      if more then
        if recordLength t < all.length then ({ s with staging := none }, .range)
        else ({ s with staging := some { g with nextPart := part + 1, bytes := all } }, .ok)
      else writeRecord t i all { s with staging := none }

/-! ## Validation (R106, R108, R144, R177) -/

/-- R62, R106: the record of an axis passes. -/
def axisValid (s : State) (c : AxisCfg) : Bool :=
  (match c.zone with
   | some z => (Tab.get? s.zones z).isSome
   | none => true) &&
  (match c.warning with
   | some t => (Tab.get? s.templates t).isSome
   | none => true) &&
  (match c.coupling with
   | none => true
   | some k => match (getAxis s k.leader).cfg with
     | none => false
     | some l => l.coupling.isNone && decide (l.zone = c.zone) &&
         decide (ceilDiv (l.vmax * k.nf) k.nl ≤ c.vmax))

/-- R108: a door passes. -/
def doorValid (s : State) (c : DoorCfg) : Bool :=
  decide ((getStation s c.station).entry.map (·.side) = some .d) &&
  (Tab.get? s.zones c.zone).isSome && (mapEntryOf s c.closedPoint).isSome &&
  (mapEntryOf s c.openPoint).isSome

/-- R144: the zones met by following parents from a zone, at most `fuel` of them. The chain ends at a
parent without a valid entry, which does not count (assumption 46). -/
def ancestors (zs : Tab Zone) : Nat → Nat → List Nat
  | 0, _ => []
  | fuel + 1, z => match (Tab.get? zs z).bind (fun w => w.cfg.parent) with
    | none => []
    | some p => if (Tab.get? zs p).isSome then p :: ancestors zs fuel p else []

/-- R144: a zone passes: the parent exists, no cycle, depth at most 4, program and template exist. A zone
whose parents lead into a cycle it is no part of counts as deeper than 4, and a zone whose parent has no
valid entry as depth 1 (assumption 46). -/
def zoneValid (s : State) (z : Nat) (c : ZoneCfg) : Bool :=
  (match c.parent with
   | some p => (Tab.get? s.zones p).isSome
   | none => true) &&
  decide (z ∉ ancestors s.zones Config.zoneFuel z) &&
  decide ((ancestors s.zones Config.zoneFuel z).length < 4) &&
  (match c.program with
   | some p => (Tab.get? s.programs p).isSome
   | none => true) &&
  (match c.alertTemplate with
   | some t => (Tab.get? s.templates t).isSome
   | none => true)

/-- R144: one step of a program of `count` steps passes; `k` is its number. -/
def stepValid (s : State) (count k : Nat) : ProgStep → Bool
  | .branch _ target => decide (k < target ∧ target ≤ count)
  | .order _ code _ _ => decide (code ≠ 0x11)
  | .call t => (Tab.get? s.templates t).isSome
  | .close _ => true
  | .await _ _ => true
  | .pause10 _ => true
  | .pause100 _ => true
  | .halt => true
  | .finish => true

/-- R144: a program passes. -/
def programValid (s : State) (p : List ProgStep) : Bool :=
  (p.zipIdx).all (fun e => stepValid s p.length (e.2 + 1) e.1)

/-- R177: the table and index of the first bad entry, tables in ascending code, entries in ascending
index. -/
def validate (s : State) : Option (Nat × Nat) :=
  match allAxes.find? (fun a => match (getAxis s a).cfg with
      | some c => !axisValid s c
      | none => false) with
  | some a => some (3, a.val)
  | none => match s.doors.find? (fun e => !doorValid s e.2.cfg) with
    | some e => some (4, e.1)
    | none => match s.zones.find? (fun e => !zoneValid s e.1 e.2.cfg) with
      | some e => some (5, e.1)
      | none => match s.programs.find? (fun e => !programValid s e.2) with
        | some e => some (6, e.1)
        | none => none

/-! ## SET_MODE (Table 10-1) -/

/-- R176: an axis allows CONFIG. -/
def axisAllowsConfig (x : Axis) : Bool := match x.state with
  | .idle => x.pending.isEmpty
  | .disabled => true
  | .fault => true
  | .moving => false
  | .stopping => false
  | .float => false

/-- R176: the CONFIG conditions. -/
def configAllowed (s : State) : Bool :=
  allAxes.all (fun a => axisAllowsConfig (getAxis s a)) &&
  s.zones.all (fun e => decide (e.2.state = .normal)) &&
  s.calls.all (fun c => decide (c.priority ≠ 0))

/-- R180: the lowest-numbered active class with response SAFE. -/
def safeClass (s : State) : Option FaultClass :=
  FaultClass.all.find? (fun c => (getClass s c).active && decide (responseTo s c = .safe))

/-- R176: entry into CONFIG. -/
def enterConfig (cause : ModeCause) (s : State) : State :=
  let t := refuseHeld .mode { s with mode := .config }
  announceMode s.mode .config cause
    (allAxes.foldl (fun u a => modifyAxis a (fun x => { x with latch := false }) u) t)

/-- R180: the response to a class that has become active within another change of mode is taken after
that change (assumption 30). -/
def respondLate (before t : State) : State :=
  match FaultClass.all.find? (fun c => (getClass t c).active && !(getClass before c).active &&
      decide (responseTo t c = .safe)) with
  | some c => if t.mode = .run then enterSafe (.fault c) t else t
  | none => t

/-- R176, R126: the part leaves CONFIG for RUN or SAFE. The responses to fault classes that the
triggers bring about wait for the change to be complete (assumption 30). -/
def leaveConfig (new : Mode) (cause : ModeCause) (s : State) : State :=
  let t := { s with mode := new }
  let t1 := if new = .safe then tellSafe t else t
  let t2 := rearmTriggers { t1 with responses := State.reset.responses }
  respondLate s (announceMode s.mode new cause { t2 with responses := s.responses })

/-- R176, R180: SET_MODE RUN or SAFE taken in CONFIG. -/
def departConfig (new : Mode) (tag : Byte) (s : State) : State × ReplyResult :=
  match validate s with
  | some (t, i) => (s, .validation t i)
  | none => match new, safeClass s with
    | .run, some c => (leaveConfig .safe (.fault c) s, .ok)
    | _, _ => (leaveConfig new (.request tag) s, .ok)

/-- R168, Table 10-1: the effect of a SET_MODE request. -/
def setMode (m : Nat) (tag : Byte) (s : State) : State × ReplyResult :=
  match m, s.mode with
  | 0, .config => (s, .ok)
  | 0, _ => if configAllowed s then (enterConfig (.request tag) s, .ok) else (s, .mode)
  | 1, .config => departConfig .run tag s
  | 1, .run => (s, .ok)
  | 1, .safe => if (safeClass s).isSome then (s, .mode)
      else (announceMode .safe .run (.request tag) { s with mode := .run }, .ok)
  | 2, .config => departConfig .safe tag s
  | 2, .run => (enterSafe (.request tag) s, .ok)
  | 2, .safe => (s, .ok)
  | _, _ => (s, .range)

/-! ## Other queued requests (R168) -/

/-- R30: the effect of a FORCE_POINT request. -/
def forcePoint (n : Nat) (v : Word16) (s : State) : State × ReplyResult :=
  if n ≤ 511 then (setImage (putPoint s.points n ⟨v, .forced, 0⟩) [n] s, .ok) else (s, .range)

/-- R31: the effect of a RELEASE_POINT request. -/
def releasePoint (n : Nat) (s : State) : State × ReplyResult :=
  if n ≤ 511 then
    if (getPoint s n).quality = .forced then
      (setImage (putPoint s.points n { getPoint s n with quality := .stale }) [n] s, .ok)
    else (s, .ok)
  else (s, .range)

/-- R168: the effect of a CLEAR_TRAVEL request. -/
def clearTravel (a : Nat) (s : State) : State × ReplyResult :=
  if a ≤ 3 then (modifyAxis (axisId a) (fun x => { x with travel := 0 }) s, .ok) else (s, .range)

end Sys2Proof.Machine
end

