-- ==== Sys2Proof/Machine/Link.lean ====
section
/-! DEFINITION. The link (Chapter 1): the checks of an arriving frame, the error window, the source
check, bridge presence, the station monitor, classification, the end of a sent frame; and the
application of samples, staleness and silence to the point image (R27 to R29). -/

namespace Sys2Proof.Machine

open Sys2Proof

/-! ## Malformed frames (R3, R4) -/

/-- R4: the error count of a port. -/
def errorCount (s : State) : Port → Nat
  | .b => s.link.errB
  | .d => s.link.errD

/-- R4: whether a port has made its occurrence in the running window. -/
def occurrenceMade (s : State) : Port → Bool
  | .b => s.link.madeB
  | .d => s.link.madeD

/-- R4: the count and the mark of a port. -/
def setErrors (p : Port) (n : Nat) (made : Bool) (s : State) : State := match p with
  | .b => { s with link := { s.link with errB := n, madeB := made } }
  | .d => { s with link := { s.link with errD := n, madeD := made } }

/-- R3, R4: a malformed frame counts one error; the first above the threshold in a window makes one
occurrence and one LINK report. -/
def malformed (p : Port) (s : State) : State :=
  let n := min 65535 (errorCount s p + 1)
  if s.settings.errThreshold < n ∧ occurrenceMade s p = false then
    routine (.link (.errorWindow p s.settings.errThreshold))
      (occurrence .linkErrors (.port p) (setErrors p n true s))
  else setErrors p n (occurrenceMade s p) s

/-- R4: the error window ends. -/
def endWindow (s : State) : State := setErrors .b 0 false (setErrors .d 0 false s)

/-! ## The source check (R5), stations (R20) and the bridge (R17, R18) -/

/-- R5: the source has a valid entry on the other side than the arrival port. -/
def sideDiffers (s : State) (p : Port) (f : Frame) : Bool :=
  match (getStation s f.src.toNat).entry with
  | some e => decide (e.side ≠ p)
  | none => false

/-- R20: a station with a valid entry is heard. -/
def stationHeard (n : Nat) (s : State) : State :=
  let x := getStation s n
  match x.entry with
  | none => s
  | some e =>
    let s1 := putStation n { x with state := .online, count := 0,
                                    silenceFlag := decide (x.state = .online) && x.silenceFlag } s
    match x.state with
    | .online => s1
    | .unseen => if x.silenceFlag then routine (.station .recovered n e.side) s1 else s1
    | .silent => tell [.stationSilent] (.station n) (routine (.station .recovered n e.side) s1)

/-- R17: a frame is heard from the manager station. The FAULT report of BRIDGE_SILENT names no contributor
(assumption 43). -/
def managerHeard (s : State) : State :=
  let s1 := { s with link := { s.link with silence := 0, silenceDue := false, bridge := .heard } }
  match s.link.bridge with
  | .heard => s1
  | .awaiting => routine (.link .bridgeHeard) (writePoints [(Config.bridgePoint, 1)] s1)
  | .silent => tell [.bridgeSilent] .none
      (routine (.link .bridgeHeard) (writePoints [(Config.bridgePoint, 1)] s1))

/-- R5, R17: what a frame that passes the source check does to the monitors, the station monitor first
(assumption 11). -/
def heard (p : Port) (f : Frame) (s : State) : State :=
  let s1 := stationHeard f.src.toNat s
  if p = .b ∧ f.src.toNat = s.settings.manager then managerHeard s1 else s1

/-- R18: bridge silence is declared. The FAULT report of BRIDGE_SILENT names no contributor
(assumption 43). -/
def declareSilence (s : State) : State :=
  let s1 := writePoints [(Config.bridgePoint, 0)]
    { s with link := { s.link with bridge := .silent, silenceDue := false } }
  refuseHeld .bridgeSilent (announceAll .bridgeSilent (tell [.bridgeSilent] .none s1))

/-- R29: the points of a station that has fallen silent. -/
def staleStation (n : Nat) (s : State) : State :=
  let due := (s.pointMap.filter (fun e => decide (e.2.station = n) &&
    decide ((getPoint s e.2.point).quality = .fresh))).map (fun e => e.2.point)
  setImage (due.foldl (fun t k => putPoint t k { getPoint s k with quality := .stale }) s.points) due s

/-- R20: an ONLINE station's silence count has reached its limit. -/
def silenceStation (n : Nat) (s : State) : State :=
  let x := getStation s n
  match x.entry with
  | some e =>
    if x.state = .online ∧ e.limit ≤ x.count then
      routine (.station .silent n e.side) (tell [.stationSilent] (.station n) (staleStation n
        (putStation n { x with state := .silent, lastSeq := none, silenceFlag := true } s)))
    else s
  | none => s

/-! ## Samples (R8, R27, R28) -/

/-- R27: the point a slot of a station sets, unless it is FORCED. -/
def slotPoint (s : State) (station slot : Nat) : Option Nat :=
  match s.pointMap.find? (fun e => decide (e.2.station = station) && decide (e.2.slot = slot)) with
  | some e => if (getPoint s e.2.point).quality = .forced then none else some e.2.point
  | none => none

/-- R27: the points a frame's pairs set, with their values, in their order in the frame. -/
def pairWrites (s : State) (f : Frame) : List (Nat × Word16) :=
  f.pairs.filterMap (fun p => (slotPoint s f.src.toNat p.1).map (fun n => (n, p.2)))

/-- R27: a SAMPLE frame is applied. -/
def applySample (f : Frame) (s : State) : State :=
  let ws := pairWrites s f
  setImage (ws.foldl (fun t w => putPoint t w.1 ⟨w.2, .fresh, 0⟩) s.points) (ws.map (·.1)) s

/-- R8: a SAMPLE frame is applied when its source has a valid entry and its sequence is new. -/
def takeSample (f : Frame) (s : State) : State :=
  let x := getStation s f.src.toNat
  if x.entry.isSome ∧ x.lastSeq ≠ some f.sequence then
    applySample f (putStation f.src.toNat { x with lastSeq := some f.sequence } s)
  else s

/-- R28: every FRESH mapped point whose age has reached ten times its entry's limit becomes STALE. -/
def staleByAge (s : State) : State :=
  let due := (s.pointMap.filter (fun e =>
    decide ((getPoint s e.2.point).quality = .fresh) &&
    decide (10 * e.2.limit ≤ (getPoint s e.2.point).age))).map (fun e => e.2.point)
  setImage (due.foldl (fun t k => putPoint t k { getPoint s k with quality := .stale }) s.points) due s

/-! ## Classification (R6 to R9, Table 1-6) -/

/-- R6: where a frame goes: destination 0, across, or local. -/
inductive Where where
  | part
  | across
  | near
  deriving DecidableEq, Repr

/-- R6: the destination of a frame that arrived at a port. -/
def destination (s : State) (p : Port) (f : Frame) : Where :=
  if f.dest = 0 then .part else if isLocal s p f.dest then .near else .across

/-- SAMPLE: applied, then forwarded or discarded; the change events of its application are taken before it
is offered for forwarding (assumption 4). -/
def onSample (p : Port) (f : Frame) (s : State) : State :=
  let t := settle (takeSample f s)
  match destination s p f with
  | .across => forwardFrame p f t
  | .part => t
  | .near => t

/-- VOICE: consumed by the calling unit at the B-port; forwarded or discarded at the D-port. -/
def onVoice (p : Port) (f : Frame) (s : State) : State := match p with
  | .b => produce (Call.onVoice s f.channel (f.samples.map BitVec.toInt)) s
  | .d => match destination s p f with
    | .across => offerDToB f s
    | .part => s
    | .near => s

/-- REPORT: forwarded or discarded. -/
def onReport (p : Port) (f : Frame) (s : State) : State := match destination s p f with
  | .across => forwardFrame p f s
  | .part => s
  | .near => s

/-- MANAGE: handed to the management unit, forwarded or discarded. -/
def onManage (p : Port) (f : Frame) (s : State) : State := match destination s p f with
  | .part => acceptManage p f s
  | .across => forwardFrame p f s
  | .near => s

/-- ORDER at the D-port toward the bridge: forwarded unchecked or discarded. -/
def onOrderToBridge (p : Port) (f : Frame) (s : State) : State := match destination s p f with
  | .across => forwardFrame p f s
  | .part => s
  | .near => s

/-- ORDER that is judged; a local destination is discarded. -/
def onOrder (p : Port) (f : Frame) (s : State) : State := match destination s p f with
  | .part => judge f p s
  | .across => judge f p s
  | .near => s

/-- R6: the disposal of a frame by its row. -/
def dispose (p : Port) (f : Frame) (s : State) : State := match rowOf p f with
  | .sample => onSample p f s
  | .voice => onVoice p f s
  | .report => onReport p f s
  | .manage => onManage p f s
  | .orderToBridge => onOrderToBridge p f s
  | _ => onOrder p f s

/-- R1, R3, R5, R6: a frame arrives whole at a port. A malformed frame and a frame from the wrong side
are dropped; a frame that is not of the command's row is disposed of as what it is (assumption 1). -/
def receive (p : Port) (bytes : List Byte) (row : FrameRow) (own : Port → Frame → State → State)
    (s : State) : State :=
  match parseFrame bytes with
  | none => settle (malformed p s)
  | some f =>
    if sideDiffers s p f then routine (.link (.side f.src p)) s
    else
      let t := settle (heard p f s)
      settle (if rowOf p f = row then own p f t else dispose p f t)

/-! ## The ends of sent frames (R11, R15) -/

/-- R11: the D-port transmitter finishes its frame: an ORDER is handed to the door monitor, then the next
frame is taken, then the change events are (assumption 41). -/
def finishD (s : State) : State := match s.link.dTx with
  | none => s
  | some f => kickD (orderSent f { s with link := { s.link with dTx := none } })

/-- R15: the B-port transmitter finishes its frame and takes the next. -/
def finishB (s : State) : State := match s.link.bTx with
  | none => s
  | some _ => kickB { s with link := { s.link with bTx := none } }

end Sys2Proof.Machine
end

