-- ==== Sys2Proof/Machine/Ticks.lean ====
section
/-! DEFINITION. The 10 ms and 100 ms ticks (R22, R34, R54 and the timers' own rules) and the occurrence
timers. A tick counts; what a count that reaches its end brings about is a command of its own
(assumption 2). -/

namespace Sys2Proof.Machine

open Sys2Proof

/-! ## 10 ms -/

/-- R22: the age of one point advances. -/
def Point.tick (p : Point) : Point :=
  if p.quality = .never then p else { p with age := min 65535 (p.age + 1) }

/-- R138: a step wait on the 10 ms tick. -/
def StepWait.tick10 : StepWait → StepWait
  | .pause10 n => .pause10 (n - 1)
  | w => w

/-- The 10 ms tick: ages, PAUSE10 waits, then the tick-refreshed axis points with one event for each axis:
a refreshed point ends the tick with age 0 (assumption 34). -/
def tick10 (s : State) : State :=
  let s1 := { s with
    points := s.points.map (fun e => (e.1, e.2.tick))
    zones := s.zones.map (fun e => (e.1, { e.2 with wait := e.2.wait.tick10 })) }
  allAxes.foldl (fun t a => publishAxis a [2, 3, 5] t) s1

/-! ## 100 ms -/

/-- R138: a step wait on the 100 ms tick. -/
def StepWait.tick100 : StepWait → StepWait
  | .await n => .await (n - 1)
  | .pause100 n => .pause100 (n - 1)
  | w => w

/-- R18: the silence count of the link. -/
def Link.tick (limit : Nat) (l : Link) : Link :=
  if l.bridge = .heard then
    { l with silence := l.silence + 1, silenceDue := decide (limit ≤ l.silence + 1) }
  else l

/-- R20: the silence count of a station. -/
def Station.tick (x : Station) : Station :=
  if x.state = .online then { x with count := x.count + 1 } else x

/-- R54: the remaining time of a held order. -/
def HoldEntry.tick (h : HoldEntry) : HoldEntry := { h with remaining := h.remaining - 1 }

/-- R113: the close-limit remaining of a door with a CLOSE in flight. -/
def Door.tick (x : Door) : Door :=
  if x.inFlight = .close then { x with remaining := x.remaining - 1 } else x

/-- R117, R128, R138: alert timer, step wait and reclose timer of a zone. -/
def Zone.tick (w : Zone) : Zone :=
  { w with timer := if w.state = .alert then w.timer - 1 else w.timer
           wait := w.wait.tick100
           reclose := w.reclose.map (· - 1) }

/-- R159: the remaining duration of a call. -/
def Call.tick (c : Call) : Call := { c with remaining := c.remaining.map (· - 1) }

/-- R178: the timer of an occurrence class. -/
def ClassState.tick (x : ClassState) : ClassState := { x with timer := x.timer - 1 }

/-- The 100 ms tick. -/
def tick100 (s : State) : State :=
  { s with
    link := s.link.tick s.settings.silenceLimit
    stations := s.stations.map (fun e => (e.1, e.2.tick))
    hold := s.hold.map HoldEntry.tick
    doors := s.doors.map (fun e => (e.1, e.2.tick))
    zones := s.zones.map (fun e => (e.1, e.2.tick))
    calls := s.calls.map Call.tick
    classes := s.classes.map ClassState.tick }

/-- R178: the timer of an occurrence class has reached 0. -/
def occurrenceExpires (c : OccurrenceClass) (s : State) : State :=
  let f := occurrenceFault c
  let x := getClass s f
  if x.active = true ∧ x.timer = 0 then
    classesChanged [f] .none (setClass f { x with active := false } s)
  else s

/-! ## Calls -/

/-- R155: a call produces its 400th chime block: its share of the voice tick (assumption 21). -/
def chimeEnds (n : Nat) (s : State) : State :=
  if s.calls.any (fun c => decide (c.number = n ∧ c.state = .chime ∧ c.owned ≠ 0 ∧
      Config.chimeBlocks ≤ c.pos + 1)) then tickCalls (fun c => decide (c.number = n)) s
  else s

/-- R159: the age of a LIVE voice call reaches the source-lost limit: its share of the voice tick
(assumption 21). -/
def sourceLost (n : Nat) (s : State) : State :=
  if s.calls.any (fun c => decide (c.number = n) && (c.onTick s).1.isLost s.settings.sourceLost) then
    tickCalls (fun c => decide (c.number = n)) s
  else s

/-- R159: the remaining duration of a call has reached 0. -/
def durationExpires (n : Nat) (s : State) : State :=
  endFirst (fun c => decide (c.number = n ∧ c.remaining = some 0)) .duration s

end Sys2Proof.Machine
end

