-- ==== Sys2Proof/Machine/Restart.lean ====
section
/-! DEFINITION. Power-on reset (R36, R86, R121, R124, R162, R174, R176) and warm restart (R37, R60, R87,
R122, R146, R162, R174, R182). Where the manual gives no order among the blocks, the order is assumption
19. -/

namespace Sys2Proof.Machine

open Sys2Proof

/-! ## Power-on reset -/

/-- R86, R65: an axis at power-on reset, with its input pins as they stand. -/
def resetAxis (p : AxisPins) : Axis := { encA := p.encA, encB := p.encB, inputs := p.pins }

/-- R36, Table 2-7: the part at a power-on reset, the flags points as the inputs stand. The commands
that wait outside stay. -/
def powerOn (pins : Vector AxisPins 4) (s : State) : State :=
  let axes := pins.map resetAxis
  { State.reset with
    axes := axes
    points := allAxes.foldl
      (fun t a => Tab.set t (Config.axisPoint a.val 4) ⟨BitVec.ofNat 16 axes[a].flags, .fresh, 0⟩)
      State.reset.points
    pending := s.pending }

/-! ## The blocks at a warm restart -/

/-- Table 2-8: one point at a warm restart; `none` is NEVER. An internal point is never FORCED (R32). -/
def restartPoint (s : State) (n : Nat) (p : Point) : Option Point :=
  if 511 < n then none
  else if p.quality = .forced then some p
  else if retentionOf s n = .keep ∧ p.quality ≠ .never then some { p with quality := .stale }
  else none

/-- R37. -/
def restartPoints (s : State) : State :=
  { s with points := s.points.filterMap (fun e => (restartPoint s e.1 e.2).map (fun p => (e.1, p))) }

/-- R19. -/
def restartStations (s : State) : State :=
  let kept := s.stations.map (fun e =>
    (e.1, { e.2 with state := StationState.unseen, count := 0, lastSeq := none }))
  { s with stations := kept.filter (fun e => decide (e.2 ≠ {})) }

/-- R87: one axis. -/
def Axis.restarted (x : Axis) : Axis :=
  let stays := decide (x.state = .fault) && decide (x.cause = some .drive) && x.inputs.driveFault
  { x with
    lastOutcome := if 0 < x.depth then some .restart else x.lastOutcome
    current := none, stop := none, pending := [], run := none, phase := .none, latch := false
    cp := x.fp, fe := 0
    cause := if stays then x.cause else none
    state := match x.state with
      | .float => .float
      | .disabled => .disabled
      | .fault => if stays then .fault else .idle
      | .idle => .idle
      | .moving => .idle
      | .stopping => .idle }

/-- R87: every axis; announcements between partners are dropped with the runs they concern. -/
def restartAxes (s : State) : State := { s with axes := s.axes.map Axis.restarted, partner := [] }

/-- R162 step 2: whether a call is started again. -/
def startsAgain (s : State) (c : Call) : Option Nat := match c.starter with
  | .zone z => match Tab.get? s.zones z with
    | some w => if c.priority = 0 ∧ w.state.shuts = true then some z else none
    | none => none
  | _ => none

/-- R162 steps 1 and 2: the calling unit before the zones rebuild (R146). -/
def restartCalls (s : State) : State :=
  s.calls.foldl (fun t c => match startsAgain s c, Tab.get? s.templates c.template with
    | some z, some tpl => joinCall (newCall t c.template tpl (.zone z) tpl.zones) t
    | _, _ => t) { s with calls := [] }

/-- R162 step 3: ownership recomputed, and all 24 ownership points written. -/
def restartOwners (s : State) : State :=
  writePoints (ownerWrites (recompute s).calls) (recompute s)

/-- R122: one door. -/
def restartDoor (d : Nat) (s : State) : State := match Tab.get? s.doors d with
  | some x =>
    let y := deriveDoor s { x with inFlight := .none, remaining := 0, jam := false }
    writePoints [(Config.doorPoint d, y.state.code)] (setDoor d y s)
  | none => s

/-- R122: every valid door, in ascending number (assumption 19). -/
def restartDoors (s : State) : State := s.doors.foldl (fun t e => restartDoor e.1 t) s

/-- Table 7-8: one zone; its changes are not reported. -/
def restartZone (z : Nat) (s : State) : State := match Tab.get? s.zones z with
  | none => s
  | some w =>
    let v : Zone := { w with timer := 0, alertCall := none, cursor := none, wait := .none,
                             reclose := none }
    match w.state with
    | .alert => startAlertCall z (setZone z { v with timer := w.cfg.alertTime } s)
    | .closing => match w.cfg.policy with
      | .rerun => if w.cfg.program.isSome then (walkFrom z 1 (setZone z v s)).1
          else (leaveClosing z (setZone z v s)).1
      | .conclude => (leaveClosing z (setZone z v s)).1
    | .normal => setZone z v s
    | .secured => setZone z v s
    | .incomplete => setZone z v s

/-- R146 step 5, R122: a zone's state announced to the door monitor after the rebuild. -/
def restartReclose (z : Nat) (s : State) : State := match Tab.get? s.zones z with
  | some w => match w.state with
    | .secured => setReclose z true s
    | .incomplete => setReclose z true (recloseRound z s)
    | .normal => s
    | .alert => s
    | .closing => s
  | none => s

/-- R146 steps 1 to 5, R122: the zones rebuild, and their reclose rounds are made, in ascending zone
number. Their start requests recompute ownership at each; its points wait for R162 step 3
(assumption 19). -/
def restartZones (s : State) : State :=
  let s1 := publishZones (s.zones.foldl (fun t e => restartZone e.1 t) s)
  s1.zones.foldl (fun t e => restartReclose e.1 t) s1

/-- R37, R17: the axis points and point 697 are written anew. -/
def restartPublish (s : State) : State :=
  writePoints [(Config.bridgePoint, if s.link.bridge = .heard then 1 else 0)]
    (allAxes.foldl (fun t a => publishAxis a [0, 1, 2, 3, 4, 5, 6, 7] t) s)

/-- R182 step 3. -/
def restartMode (s : State) : Mode :=
  if s.mode = .config then .config else if (safeClass s).isSome then .safe else .run

/-- R182: mode control. -/
def restartControl (s : State) : State :=
  let s1 := FaultClass.all.foldl (fun t c => recount c (setClass c {} t)) s
  let s2 := { s1 with mode := restartMode s1 }
  writePoints [(Config.modePoint, s2.mode.code), (Config.faultPoint, (activeSet s2).toNat)] s2

/-- R174, first part: the queues are emptied and reports are held while the blocks rebuild. -/
def restartBegin (s : State) : State :=
  { s with manage := s.manage.take 1, staging := none, reports := [], overflow := false, hold := []
           rebuilding := some [] }

/-- R174: every block rebuilds. -/
def rebuild (s : State) : State :=
  restartControl (restartPublish (restartOwners (restartZones (restartDoors (restartCalls (restartAxes
    (restartStations (restartPoints s))))))))

/-- R174, last part: RESTARTED, the REPLY, and the reports held while the blocks rebuilt. -/
def restartReports (r : Request) (held reports requests : Nat) (s : State) : State :=
  let s1 := { s with rebuilding := none }
  let s2 := replyTo r .ok [] (alarm (.restarted s.mode held reports requests) s1)
  (s.rebuilding.getD []).foldl (fun t x => offerReport x t) s2

/-- R174, R182: a warm restart at the completion of a RESTART request. -/
def warmRestart (r : Request) (s : State) : State :=
  let t := restartReports r s.hold.length s.reports.length (s.manage.length - 1)
    (rebuild (restartBegin s))
  settle (evalTriggers { t with manage := t.manage.tail })

end Sys2Proof.Machine
end

