-- ==== Sys2Proof/Machine/FrameCommands.lean ====
section
/-! DEFINITION. The meanings of the frame commands: each is the arrival of a frame of its row (R1, R3,
R5, R6), disposed of as its row says. -/

namespace Sys2Proof.Machine

open Sys2Proof

/-- What a command answers. -/
abbrev Answer := Host.Outcome State Fault Refusal

/-- R8: a SAMPLE frame arrives. -/
def execSample (p : Port) (bytes : List Byte) (s : State) : Answer :=
  .next (receive p bytes .sample onSample s)

/-- R9: a VOICE frame arrives. -/
def execVoice (p : Port) (bytes : List Byte) (s : State) : Answer :=
  .next (receive p bytes .voice onVoice s)

/-- R6: a REPORT frame arrives. -/
def execReport (p : Port) (bytes : List Byte) (s : State) : Answer :=
  .next (receive p bytes .report onReport s)

/-- R7: an ORDER arrives at the D-port with an across destination. -/
def execOrderToBridge (p : Port) (bytes : List Byte) (s : State) : Answer :=
  .next (receive p bytes .orderToBridge onOrderToBridge s)

/-- R163: a MANAGE frame arrives. -/
def execManage (p : Port) (bytes : List Byte) (s : State) : Answer :=
  .next (receive p bytes .manage onManage s)

/-- R39: a DOOR_CLOSE order arrives. -/
def execDoorClose (p : Port) (bytes : List Byte) (s : State) : Answer :=
  .next (receive p bytes .doorClose onOrder s)

/-- R44: a DOOR_OPEN order arrives. -/
def execDoorOpen (p : Port) (bytes : List Byte) (s : State) : Answer :=
  .next (receive p bytes .doorOpen onOrder s)

/-- R39: an output order arrives. -/
def execOutputOrder (p : Port) (bytes : List Byte) (s : State) : Answer :=
  .next (receive p bytes .outputOrder onOrder s)

/-- R67: a MOVE order arrives. -/
def execMove (p : Port) (bytes : List Byte) (s : State) : Answer :=
  .next (receive p bytes .move onOrder s)

/-- R70: an AXIS_GO order arrives. -/
def execAxisGo (p : Port) (bytes : List Byte) (s : State) : Answer :=
  .next (receive p bytes .axisGo onOrder s)

/-- R81: an AXIS_STOP order arrives. -/
def execAxisStop (p : Port) (bytes : List Byte) (s : State) : Answer :=
  .next (receive p bytes .axisStop onOrder s)

/-- R98: an AXIS_CLEAR order arrives. -/
def execAxisClear (p : Port) (bytes : List Byte) (s : State) : Answer :=
  .next (receive p bytes .axisClear onOrder s)

/-- R131: a ZONE_ALERT order arrives. -/
def execZoneAlert (p : Port) (bytes : List Byte) (s : State) : Answer :=
  .next (receive p bytes .zoneAlert onOrder s)

/-- R131: a ZONE_CLOSE_NOW order arrives. -/
def execZoneCloseNow (p : Port) (bytes : List Byte) (s : State) : Answer :=
  .next (receive p bytes .zoneCloseNow onOrder s)

/-- R131: a ZONE_CANCEL order arrives. -/
def execZoneCancel (p : Port) (bytes : List Byte) (s : State) : Answer :=
  .next (receive p bytes .zoneCancel onOrder s)

/-- R132: a ZONE_RELEASE order arrives. -/
def execZoneRelease (p : Port) (bytes : List Byte) (s : State) : Answer :=
  .next (receive p bytes .zoneRelease onOrder s)

/-- R151: a CALL_START order arrives. -/
def execCallStart (p : Port) (bytes : List Byte) (s : State) : Answer :=
  .next (receive p bytes .callStart onOrder s)

/-- R159: a CALL_END order arrives. -/
def execCallEnd (p : Port) (bytes : List Byte) (s : State) : Answer :=
  .next (receive p bytes .callEnd onOrder s)

/-- R43: an order to the part with a code that Table 3-2 does not list arrives. -/
def execUnknownOrderToPart (p : Port) (bytes : List Byte) (s : State) : Answer :=
  .next (receive p bytes .unknownOrder onOrder s)

end Sys2Proof.Machine
end

