-- ==== Sys2Proof/Machine/RequestCommands.lean ====
section
/-! DEFINITION. The meanings of the manage requests: the request at the head of the manage queue
completes (R165), or a direct read arrives (R164). A completion finds its request at the head of the
queue; where another request or none stands there, the event does not arise and nothing changes
(assumption 2). -/

namespace Sys2Proof.Machine

open Sys2Proof

/-- R166, R167: a WRITE_ENTRY completes. -/
def execWriteEntry (s : State) : Answer := match s.manage with
  | r :: _ => match r.body with
    | .writeEntry t i part bs => .next (completeHead r (fun u =>
        ((writePart t i part bs r.more u).1, (writePart t i part bs r.more u).2, [])) s)
    | _ => .next s
  | [] => .next s

/-- R166: a CLEAR_ENTRY completes. -/
def execClearEntry (s : State) : Answer := match s.manage with
  | r :: _ => match r.body with
    | .clearEntry t i => .next (completeHead r (fun u =>
        ((clearRecord t i u).1, (clearRecord t i u).2, [])) s)
    | _ => .next s
  | [] => .next s

/-- R30: a FORCE_POINT completes. -/
def execForcePoint (s : State) : Answer := match s.manage with
  | r :: _ => match r.body with
    | .forcePoint n v => .next (completeHead r (fun u =>
        ((forcePoint n v u).1, (forcePoint n v u).2, [])) s)
    | _ => .next s
  | [] => .next s

/-- R31: a RELEASE_POINT completes. -/
def execReleasePoint (s : State) : Answer := match s.manage with
  | r :: _ => match r.body with
    | .releasePoint n => .next (completeHead r (fun u =>
        ((releasePoint n u).1, (releasePoint n u).2, [])) s)
    | _ => .next s
  | [] => .next s

/-- R176: a SET_MODE completes. -/
def execSetMode (s : State) : Answer := match s.manage with
  | r :: _ => match r.body with
    | .setMode m => .next (completeHead r (fun u =>
        ((setMode m r.tag u).1, (setMode m r.tag u).2, [])) s)
    | _ => .next s
  | [] => .next s

/-- R168: a CLEAR_TRAVEL completes. -/
def execClearTravel (s : State) : Answer := match s.manage with
  | r :: _ => match r.body with
    | .clearTravel a => .next (completeHead r (fun u =>
        ((clearTravel a u).1, (clearTravel a u).2, [])) s)
    | _ => .next s
  | [] => .next s

/-- R174, R182: a RESTART completes. -/
def execRestart (s : State) : Answer := match s.manage with
  | r :: _ => match r.body with
    | .restart => .next (warmRestart r s)
    | _ => .next s
  | [] => .next s

/-- R169: READ_ENTRY. -/
def execReadEntry (e : ReadEvent) (s : State) : Answer := match e with
  | .arrives p bytes => .next (receive p bytes .manage onManage s)
  | .completes => .next (completeRead (fun b => decide (b.code = 8)) s)

/-- R169: READ_POINTS. -/
def execReadPoints (e : ReadEvent) (s : State) : Answer := match e with
  | .arrives p bytes => .next (receive p bytes .manage onManage s)
  | .completes => .next (completeRead (fun b => decide (b.code = 9)) s)

/-- R169: READ_STATUS. -/
def execReadStatus (e : ReadEvent) (s : State) : Answer := match e with
  | .arrives p bytes => .next (receive p bytes .manage onManage s)
  | .completes => .next (completeRead (fun b => decide (b.code = 10)) s)

end Sys2Proof.Machine
end

