-- ==== Sys2Proof/Machine/EventCommands.lean ====
section
/-! DEFINITION. The meanings of the reset, of the ends of sent frames, of the time bases and of the
follow-up events. -/

namespace Sys2Proof.Machine

open Sys2Proof

/-- R176, R36: nPOR resets every block. -/
def execPowerOnReset (pins : Vector AxisPins 4) (s : State) : Answer :=
  .next (powerOn pins s)

/-- R11: the D-port transmitter finishes a frame. -/
def execDPortFrameSent (s : State) : Answer :=
  .next (settle (finishD s))

/-- R15: the B-port transmitter finishes a frame. -/
def execBPortFrameSent (s : State) : Answer :=
  .next (settle (finishB s))

/-- R4: an error window ends. -/
def execErrorWindowEnd (s : State) : Answer :=
  .next (settle (endWindow s))

/-- R74: the 1 ms update of an axis. -/
def execAxisUpdate (a : AxisId) (inputs : AxisInputs) (s : State) : Answer :=
  .next (settle (updateAxis a inputs s))

/-- R22, R34: the 10 ms tick. -/
def execTick10Ms (s : State) : Answer :=
  .next (settle (tick10 s))

/-- R28: FRESH points reach their stale limit. -/
def execStaleLimit (s : State) : Answer :=
  .next (settle (staleByAge s))

/-- R155, R156, R159: the 4 ms voice tick. -/
def execVoiceTick (s : State) : Answer :=
  .next (settle (tickCalls (fun _ => true) s))

/-- R155: a call produces its 400th chime block. -/
def execChimeEnd (number : Nat) (s : State) : Answer :=
  .next (settle (chimeEnds number s))

/-- R159: the source of a LIVE voice call is lost. -/
def execSourceLost (number : Nat) (s : State) : Answer :=
  .next (settle (sourceLost number s))

/-- R18: bridge silence is declared. -/
def execBridgeSilence (s : State) : Answer :=
  .next (settle (if s.link.bridge = .heard ∧ s.link.silenceDue = true then declareSilence s else s))

/-- R20: a station falls silent. -/
def execStationSilence (station : Nat) (s : State) : Answer :=
  .next (settle (silenceStation station s))

/-- R57: held orders expire. -/
def execHoldExpired (s : State) : Answer :=
  .next (settle (expireHeld s))

/-- R113: the close limit of a door expires. -/
def execCloseLimitExpiry (door : Nat) (s : State) : Answer :=
  .next (settle (closeLimitExpires door s))

/-- R128: the alert timer of a zone expires. -/
def execAlertTimerExpiry (zone : Nat) (s : State) : Answer :=
  .next (settle (alertExpires zone s))

/-- R117: the reclose timer of a zone reaches 0. -/
def execRecloseTimerExpiry (zone : Nat) (s : State) : Answer :=
  .next (settle (recloseExpires zone s))

/-- R138: an AWAIT runs out its limit. -/
def execAwaitLimit (zone : Nat) (s : State) : Answer :=
  .next (settle (awaitExpires zone s))

/-- R138: a PAUSE10 ends. -/
def execPause10Expiry (zone : Nat) (s : State) : Answer :=
  .next (settle (pause10Expires zone s))

/-- R138: a PAUSE100 ends. -/
def execPause100Expiry (zone : Nat) (s : State) : Answer :=
  .next (settle (pause100Expires zone s))

/-- R159: the duration of a call runs out. -/
def execCallDurationExpiry (number : Nat) (s : State) : Answer :=
  .next (settle (durationExpires number s))

/-- R178: the timer of an occurrence class reaches 0. -/
def execOccurrenceTimerExpiry (c : OccurrenceClass) (s : State) : Answer :=
  .next (settle (occurrenceExpires c s))

/-- R55, R56: the held orders that pass at re-evaluation are released. -/
def execHoldRelease (s : State) : Answer :=
  .next (settle (releaseHeld s))

/-- R138: the AWAIT of a zone re-examines its doors and, where each is CLOSED or JAMMED, the cursor moves on
(assumption 2). -/
def execAwaitDoorsClosed (zone : Nat) (s : State) : Answer :=
  .next (settle (reexamine zone s))

/-- R137, R140: a step that stands for room offers again. -/
def execProgramStepReoffer (zone : Nat) (s : State) : Answer :=
  .next (settle (reoffer zone s))

/-- R105: an axis takes an announcement of its coupled partner. -/
def execPartnerAnnouncement (a : AxisId) (s : State) : Answer :=
  .next (settle (partnerStep a s))

/-- R54: the 100 ms tick. -/
def execTick100Ms (s : State) : Answer :=
  .next (settle (tick100 s))

end Sys2Proof.Machine
end

