-- ==== Sys2Proof/Machine/Dispatch.lean ====
section
/-! DEFINITION. One arm for each command, each the direct call of its meaning. -/

namespace Sys2Proof.Machine

open Sys2Proof

def exec (i : Instr) (s : State) : Host.Outcome State Fault Refusal :=
  match i with
  | .powerOnReset pins => Sys2Proof.Machine.execPowerOnReset pins s
  | .sample p bytes => Sys2Proof.Machine.execSample p bytes s
  | .voice p bytes => Sys2Proof.Machine.execVoice p bytes s
  | .report p bytes => Sys2Proof.Machine.execReport p bytes s
  | .orderToBridge p bytes => Sys2Proof.Machine.execOrderToBridge p bytes s
  | .manage p bytes => Sys2Proof.Machine.execManage p bytes s
  | .doorClose p bytes => Sys2Proof.Machine.execDoorClose p bytes s
  | .doorOpen p bytes => Sys2Proof.Machine.execDoorOpen p bytes s
  | .outputOrder p bytes => Sys2Proof.Machine.execOutputOrder p bytes s
  | .move p bytes => Sys2Proof.Machine.execMove p bytes s
  | .axisGo p bytes => Sys2Proof.Machine.execAxisGo p bytes s
  | .axisStop p bytes => Sys2Proof.Machine.execAxisStop p bytes s
  | .axisClear p bytes => Sys2Proof.Machine.execAxisClear p bytes s
  | .zoneAlert p bytes => Sys2Proof.Machine.execZoneAlert p bytes s
  | .zoneCloseNow p bytes => Sys2Proof.Machine.execZoneCloseNow p bytes s
  | .zoneCancel p bytes => Sys2Proof.Machine.execZoneCancel p bytes s
  | .zoneRelease p bytes => Sys2Proof.Machine.execZoneRelease p bytes s
  | .callStart p bytes => Sys2Proof.Machine.execCallStart p bytes s
  | .callEnd p bytes => Sys2Proof.Machine.execCallEnd p bytes s
  | .writeEntry => Sys2Proof.Machine.execWriteEntry s
  | .clearEntry => Sys2Proof.Machine.execClearEntry s
  | .forcePoint => Sys2Proof.Machine.execForcePoint s
  | .releasePoint => Sys2Proof.Machine.execReleasePoint s
  | .setMode => Sys2Proof.Machine.execSetMode s
  | .clearTravel => Sys2Proof.Machine.execClearTravel s
  | .restart => Sys2Proof.Machine.execRestart s
  | .readEntry e => Sys2Proof.Machine.execReadEntry e s
  | .readPoints e => Sys2Proof.Machine.execReadPoints e s
  | .readStatus e => Sys2Proof.Machine.execReadStatus e s
  | .dPortFrameSent => Sys2Proof.Machine.execDPortFrameSent s
  | .bPortFrameSent => Sys2Proof.Machine.execBPortFrameSent s
  | .errorWindowEnd => Sys2Proof.Machine.execErrorWindowEnd s
  | .axisUpdate a inputs => Sys2Proof.Machine.execAxisUpdate a inputs s
  | .tick10Ms => Sys2Proof.Machine.execTick10Ms s
  | .staleLimit => Sys2Proof.Machine.execStaleLimit s
  | .voiceTick => Sys2Proof.Machine.execVoiceTick s
  | .chimeEnd number => Sys2Proof.Machine.execChimeEnd number s
  | .sourceLost number => Sys2Proof.Machine.execSourceLost number s
  | .bridgeSilence => Sys2Proof.Machine.execBridgeSilence s
  | .stationSilence station => Sys2Proof.Machine.execStationSilence station s
  | .holdExpired => Sys2Proof.Machine.execHoldExpired s
  | .closeLimitExpiry door => Sys2Proof.Machine.execCloseLimitExpiry door s
  | .alertTimerExpiry zone => Sys2Proof.Machine.execAlertTimerExpiry zone s
  | .recloseTimerExpiry zone => Sys2Proof.Machine.execRecloseTimerExpiry zone s
  | .awaitLimit zone => Sys2Proof.Machine.execAwaitLimit zone s
  | .pause10Expiry zone => Sys2Proof.Machine.execPause10Expiry zone s
  | .pause100Expiry zone => Sys2Proof.Machine.execPause100Expiry zone s
  | .callDurationExpiry number => Sys2Proof.Machine.execCallDurationExpiry number s
  | .occurrenceTimerExpiry c => Sys2Proof.Machine.execOccurrenceTimerExpiry c s
  | .holdRelease => Sys2Proof.Machine.execHoldRelease s
  | .awaitDoorsClosed zone => Sys2Proof.Machine.execAwaitDoorsClosed zone s
  | .programStepReoffer zone => Sys2Proof.Machine.execProgramStepReoffer zone s
  | .partnerAnnouncement a => Sys2Proof.Machine.execPartnerAnnouncement a s
  | .tick100Ms => Sys2Proof.Machine.execTick100Ms s
  | .unknownOrderToPart p bytes => Sys2Proof.Machine.execUnknownOrderToPart p bytes s

end Sys2Proof.Machine
end

