-- ==== Sys2Proof/Safety.lean ====
section
/-! DEFINITION. What counts as a safe run of the part, in the words claims use: the capacities of its
queues, the canonical form of its tables, the ownership of the audio zones, what a command may change,
and the situations in which a command finds the part. -/

namespace Sys2Proof.Machine

open Sys2Proof

/-! ## Invariants -/

/-- The capacities the manual gives every queue and list hold (R12 to R14, R16, R54, R66, R150, R164,
R172). -/
structure Bounded (s : State) : Prop where
  safety : s.link.safety.length ≤ 8
  voice : s.link.voice.length ≤ 4
  forward : s.link.forward.length ≤ 16
  dToB : s.link.dToB.length ≤ 16
  reports : s.reports.length ≤ 32
  hold : s.hold.length ≤ 8
  manage : s.manage.length ≤ 16
  calls : s.calls.length ≤ 16
  moves : ∀ a : AxisId, (getAxis s a).pending.length ≤ 2

/-- Every table lists its numbers strictly rising, and neither the image nor the station slots list
what an unlisted number reads as. -/
structure Canonical (s : State) : Prop where
  points : Tab.Sorted s.points = true
  pointsListed : ∀ e ∈ s.points, e.2 ≠ {}
  stations : Tab.Sorted s.stations = true
  stationsListed : ∀ e ∈ s.stations, e.2 ≠ {}
  pointMap : Tab.Sorted s.pointMap = true
  rules : Tab.Sorted s.rules = true
  doors : Tab.Sorted s.doors = true
  zones : Tab.Sorted s.zones = true
  programs : Tab.Sorted s.programs = true
  templates : Tab.Sorted s.templates = true
  audioZones : Tab.Sorted s.audioZones = true

/-- Every call owns what R152 gives it. -/
def Owned (s : State) : Prop := assignOwners [] s.calls = s.calls

/-! ## What a command leaves -/

/-- The eleven tables of R175 read the same: station entries, Point Map, rules, axis records, door and
zone entries, programs, templates, audio zones, fault responses, settings. -/
structure SameTables (s t : State) : Prop where
  stations : ∀ n, (getStation t n).entry = (getStation s n).entry
  pointMap : t.pointMap = s.pointMap
  rules : t.rules = s.rules
  axes : ∀ a : AxisId, (getAxis t a).cfg = (getAxis s a).cfg
  doors : ∀ d, (Tab.get? t.doors d).map (·.cfg) = (Tab.get? s.doors d).map (·.cfg)
  zones : ∀ z, (Tab.get? t.zones z).map (·.cfg) = (Tab.get? s.zones z).map (·.cfg)
  programs : t.programs = s.programs
  templates : t.templates = s.templates
  audioZones : t.audioZones = s.audioZones
  responses : t.responses = s.responses
  settings : t.settings = s.settings

/-- The commands whose steps write the tables (R166, R176). -/
def writesTables : Instr → Bool
  | .writeEntry => true
  | .clearEntry => true
  | .powerOnReset _ => true
  | _ => false

/-- The commands that set a field point, change its quality or count its age (R22, R26 to R31, R36,
R37). -/
def touchesFieldPoints : Instr → Bool
  | .sample _ _ => true
  | .staleLimit => true
  | .stationSilence _ => true
  | .writeEntry => true
  | .clearEntry => true
  | .forcePoint => true
  | .releasePoint => true
  | .tick10Ms => true
  | .restart => true
  | .powerOnReset _ => true
  | _ => false

/-- The commands that may end the FORCED quality of a point or change its value (R30). -/
def endsForcing : Instr → Bool
  | .forcePoint => true
  | .releasePoint => true
  | .powerOnReset _ => true
  | _ => false

/-- The commands that take the inputs of an axis, or set its counters at power-on (R65, R74, R86). -/
def countsAxis (a : AxisId) : Instr → Bool
  | .axisUpdate b _ => decide (b = a)
  | .powerOnReset _ => true
  | _ => false

/-! ## Arriving frames -/

/-- The command by which a frame of a row arrives. -/
def frameCommand (row : FrameRow) (p : Port) (bytes : List Byte) : Instr := match row with
  | .sample => .sample p bytes
  | .voice => .voice p bytes
  | .report => .report p bytes
  | .orderToBridge => .orderToBridge p bytes
  | .manage => .manage p bytes
  | .doorClose => .doorClose p bytes
  | .doorOpen => .doorOpen p bytes
  | .outputOrder => .outputOrder p bytes
  | .move => .move p bytes
  | .axisGo => .axisGo p bytes
  | .axisStop => .axisStop p bytes
  | .axisClear => .axisClear p bytes
  | .zoneAlert => .zoneAlert p bytes
  | .zoneCloseNow => .zoneCloseNow p bytes
  | .zoneCancel => .zoneCancel p bytes
  | .zoneRelease => .zoneRelease p bytes
  | .callStart => .callStart p bytes
  | .callEnd => .callEnd p bytes
  | .unknownOrder => .unknownOrderToPart p bytes

/-- The bytes spell the valid frame `f` (R3), its source is not on the other side (R5), and `t` is the
state in which it is disposed of: heard (R17, R20), with the change events of that taken. -/
structure Arrives (p : Port) (bytes : List Byte) (f : Frame) (s t : State) : Prop where
  spells : parseFrame bytes = some f
  side : sideDiffers s p f = false
  heard : t = settle (heard p f s)

/-! ## Judged orders -/

/-- R41: the order passes the mode check, the decode, the gate check and the rule lookup. -/
structure PassesJudgement (f : Frame) (o : Port) (s : State) : Prop where
  mode : modeAllows s.mode f = true
  decode : f.dest = 0 → decodes f = true
  gate : gateBars s f = false
  rule : match lookupRule s o f with
    | none => s.settings.verdict = .pass
    | some (_, r) => (evalRule s r).2 = true

/-- R51: the PASSED report of an order judged in `s`, made in `t` when its rule has notify = yes. -/
def passNote (s : State) (f : Frame) (o : Port) (t : State) : State := match lookupRule s o f with
  | none => t
  | some (n, r) => if r.notify then reportVerdict .passed f o (some n) (some (evalRule s r).1) t else t

/-! ## Requests -/

/-- R165: what the completion of the request at the head leaves: the effect's change events taken, then
one REPLY (assumption 47), the request gone. -/
def completed (r : Request) (result : ReplyResult) (data : List Byte) (effect : State) : State :=
  let t := replyTo r result data (settle effect)
  { t with manage := t.manage.tail }

/-! ## Receivers -/

/-- Nothing waits for a point change: no held order, no valid zone, no valid door. -/
structure NoReceivers (s : State) : Prop where
  hold : s.hold = []
  zones : s.zones = []
  doors : s.doors = []

end Sys2Proof.Machine
end

