-- ==== Sys2Proof/WellFormed.lean ====
section
/-! DEFINITION. Well-formed commands: numbers lie in the ranges of 00_scope.md 6.4 and 6.6, and a frame
command that carries a valid frame carries one of its own row. -/

namespace Sys2Proof

open Sys2Proof.Machine

/-- A frame command carries a malformed frame, or a valid one of its row. -/
def frameOfRow (p : Port) (bytes : List Byte) (row : FrameRow) : Bool := match parseFrame bytes with
  | none => true
  | some f => decide (rowOf p f = row)

/-- A read request arrives as a MANAGE frame addressed to the part, or as a malformed frame. -/
def readEventOk (e : ReadEvent) (code : Nat) : Bool := match e with
  | .completes => true
  | .arrives _ bytes => match parseFrame bytes with
    | none => true
    | some f => decide (f.kind = .manage) && decide (f.dest = 0) && decide (f.code = code)

/-- 00_scope.md 6.6: call numbers 1-255. -/
def callNumberOk (n : Nat) : Bool := decide (1 ≤ n ∧ n ≤ 255)
/-- 00_scope.md 6.6: zones 0-15. -/
def zoneOk (z : Nat) : Bool := decide (z ≤ 15)
/-- 00_scope.md 6.6: doors 0-95. -/
def doorOk (d : Nat) : Bool := decide (d ≤ 95)
/-- 00_scope.md 6.4: field stations 1-62. -/
def stationOk (n : Nat) : Bool := decide (1 ≤ n ∧ n ≤ 62)

/-- Whether a command's operands lie in their ranges. -/
def Instr.wf : Instr → Bool
  | .powerOnReset _ => true
  | .sample p b => frameOfRow p b .sample
  | .voice p b => frameOfRow p b .voice
  | .report p b => frameOfRow p b .report
  | .orderToBridge p b => frameOfRow p b .orderToBridge
  | .manage p b => frameOfRow p b .manage
  | .doorClose p b => frameOfRow p b .doorClose
  | .doorOpen p b => frameOfRow p b .doorOpen
  | .outputOrder p b => frameOfRow p b .outputOrder
  | .move p b => frameOfRow p b .move
  | .axisGo p b => frameOfRow p b .axisGo
  | .axisStop p b => frameOfRow p b .axisStop
  | .axisClear p b => frameOfRow p b .axisClear
  | .zoneAlert p b => frameOfRow p b .zoneAlert
  | .zoneCloseNow p b => frameOfRow p b .zoneCloseNow
  | .zoneCancel p b => frameOfRow p b .zoneCancel
  | .zoneRelease p b => frameOfRow p b .zoneRelease
  | .callStart p b => frameOfRow p b .callStart
  | .callEnd p b => frameOfRow p b .callEnd
  | .writeEntry => true
  | .clearEntry => true
  | .forcePoint => true
  | .releasePoint => true
  | .setMode => true
  | .clearTravel => true
  | .restart => true
  | .readEntry e => readEventOk e 8
  | .readPoints e => readEventOk e 9
  | .readStatus e => readEventOk e 10
  | .dPortFrameSent => true
  | .bPortFrameSent => true
  | .errorWindowEnd => true
  | .axisUpdate _ _ => true
  | .tick10Ms => true
  | .staleLimit => true
  | .voiceTick => true
  | .chimeEnd n => callNumberOk n
  | .sourceLost n => callNumberOk n
  | .bridgeSilence => true
  | .stationSilence n => stationOk n
  | .holdExpired => true
  | .closeLimitExpiry d => doorOk d
  | .alertTimerExpiry z => zoneOk z
  | .recloseTimerExpiry z => zoneOk z
  | .awaitLimit z => zoneOk z
  | .pause10Expiry z => zoneOk z
  | .pause100Expiry z => zoneOk z
  | .callDurationExpiry n => callNumberOk n
  | .occurrenceTimerExpiry _ => true
  | .holdRelease => true
  | .awaitDoorsClosed z => zoneOk z
  | .programStepReoffer z => zoneOk z
  | .partnerAnnouncement _ => true
  | .tick100Ms => true
  | .unknownOrderToPart p b => frameOfRow p b .unknownOrder

end Sys2Proof
end

