-- ==== Sys2Proof/Certificates/Slice0/Obligations.lean ====
section
/-! DEFINITION. The statements for the provers, in the order of the manual's chapters. A statement whose
conclusion is `exec c s = .next …` says where the command `c` completes and with what; every field that
the right-hand side does not update is left as it was. -/

section
open Sys2Proof Sys2Proof.Machine

/-! ## The machine -/

/-- Every step runs the command at the front of the queue on the state with the queue's rest; and, by the
model's choice (assumption 3), on an empty queue the part idles. -/
def Obligations.StepRunsFrontCommand : Prop :=
  (∀ (c : Instr) (rest : List Instr) (s : State), s.pending = c :: rest →
     step s = exec c { s with pending := rest }) ∧
  (∀ s : State, s.pending = [] → step s = .next s)

/-- Every command has a next state; and, by the model's choice (assumptions 3 and 23: the queue of the
commands that wait is the model's own), it leaves that queue as it is, POWER_ON_RESET included. -/
def Obligations.EveryCommandAnswersNext : Prop :=
  ∀ (c : Instr) (s : State), ∃ t, exec c s = .next t ∧ t.pending = s.pending

/-- POWER_ON_RESET (R1, R17, R19, R36 Table 2-7, R54, R86, R121, R124, R150, R174, R176, R178, R179, R181)
leaves every field at its reset value; encoder levels, inputs and flags points are those of the pins. By
the model's choice the idle level of DIR is low (assumption 6) and the queue of waiting commands stays
as it is (assumption 23). -/
def Obligations.PowerOnResetLeavesResetValues : Prop :=
  ∀ (pins : Vector AxisPins 4) (s : State), ∃ t, exec (.powerOnReset pins) s = .next t ∧
    t.pending = s.pending ∧ t.mode = .config ∧
    t.link = { errB := 0, errD := 0, madeB := false, madeD := false, safety := [], voice := [],
               forward := [], dToB := [], dTx := none, bTx := none, turn := .report,
               bridge := .awaiting, silence := 0, silenceDue := false } ∧
    t.stations = [] ∧ t.pointMap = [] ∧ t.rules = [] ∧ t.hold = [] ∧
    t.partner = [] ∧ t.doors = [] ∧ t.zones = [] ∧ t.programs = [] ∧ t.templates = [] ∧
    t.audioZones = [] ∧ t.calls = [] ∧ t.lastNumber = 0 ∧ t.manage = [] ∧ t.staging = none ∧
    t.reports = [] ∧ t.overflow = false ∧ t.events = [] ∧ t.rebuilding = none ∧
    (∀ c, getClass t c = { active := false, count := 0, timer := 0 }) ∧
    (∀ c, responseTo t c = .goOn) ∧
    t.settings = { manager := 1, verdict := .refuse, silenceLimit := 10, errThreshold := 16,
                   sourceLost := 2000 } ∧
    (∀ a : AxisId, getAxis t a = { encA := pins[a].encA, encB := pins[a].encB,
                                   inputs := pins[a].pins }) ∧
    (∀ a : AxisId, getPoint t (512 + 8 * a.val + 4) =
      { value := BitVec.ofNat 16 (16 * pins[a].pins.upper.toNat + 32 * pins[a].pins.lower.toNat +
          64 * pins[a].pins.contact.toNat + 128 * pins[a].pins.driveFault.toNat)
        quality := .fresh, age := 0 }) ∧
    (∀ n, (∀ a : AxisId, n ≠ 512 + 8 * a.val + 4) → getPoint t n =
      if 512 ≤ n ∧ n ≤ 543 then { value := 0, quality := .fresh, age := 0 }
      else if 672 ≤ n ∧ n ≤ 695 then { value := 7, quality := .fresh, age := 0 }
      else if n = 696 ∨ n = 698 then { value := 0, quality := .fresh, age := 0 }
      else { value := 0, quality := .never, age := 0 })

/-! ## Chapter 1: the link -/

/-- R2, R3, R10: a frame sent with its CRC computed afresh is read back as the frame it was, whatever its
kind, class, stations, flags and payload within the form of R3. -/
def Obligations.SentFrameIsReadBack : Prop :=
  ∀ f : Frame, f.payload.length ≤ 80 → f.src ≠ 0 → f.src ≠ 63 →
    payloadFits f.kind f.payload = true → parseFrame f.bytes = some f

/-- R10: a frame received and forwarded leaves byte for byte as it came, its CRC included. -/
def Obligations.ForwardedFrameKeepsItsBytes : Prop :=
  ∀ (bytes : List Byte) (f : Frame), parseFrame bytes = some f → f.bytes = bytes

/-- R3, R4: a malformed frame, of whatever row, counts one error on its port, saturating at 65535; the first
above the threshold in a window makes one LINK_ERRORS occurrence and one LINK report, in that order by the
model's choice (assumption 11); nothing else changes. R5: a valid frame whose source entry lies on the other side is dropped with one LINK report
SIDE. R4: at the end of a window both counts return to 0 and both ports may make an occurrence again. -/
def Obligations.DroppedFramesAreCountedOrReported : Prop :=
  (∀ (row : FrameRow) (p : Port) (bytes : List Byte) (s : State), parseFrame bytes = none →
     ((s.settings.errThreshold < min 65535 (errorCount s p + 1) ∧ occurrenceMade s p = false) →
       exec (frameCommand row p bytes) s = .next (settle
         (routine (.link (.errorWindow p s.settings.errThreshold))
           (occurrence .linkErrors (.port p)
             (setErrors p (min 65535 (errorCount s p + 1)) true s))))) ∧
     (¬(s.settings.errThreshold < min 65535 (errorCount s p + 1) ∧ occurrenceMade s p = false) →
       exec (frameCommand row p bytes) s = .next (settle
         (setErrors p (min 65535 (errorCount s p + 1)) (occurrenceMade s p) s)))) ∧
  (∀ (row : FrameRow) (p : Port) (bytes : List Byte) (f : Frame) (e : StationEntry) (s : State),
     parseFrame bytes = some f → (getStation s f.src.toNat).entry = some e → e.side ≠ p →
     exec (frameCommand row p bytes) s = .next (offerReport ⟨false, .link (.side f.src p)⟩ s)) ∧
  (∀ s : State, exec .errorWindowEnd s = .next (settle { s with
     link := { s.link with errB := 0, madeB := false, errD := 0, madeD := false } }))

/-- R6 Table 1-6, R8: a SAMPLE frame from a station with a valid entry and a new sequence is applied and
its sequence kept; any other SAMPLE frame is not applied; either is then forwarded when its destination
is across, and otherwise discarded. The change events of the application are taken before the SAMPLE is
offered for forwarding (the model's choice, assumption 4). -/
def Obligations.SampleFrameIsAppliedOnce : Prop :=
  ∀ (p : Port) (bytes : List Byte) (f : Frame) (s t u : State), Arrives p bytes f s t →
    f.kind = .sample →
    (((getStation t f.src.toNat).entry ≠ none ∧
        (getStation t f.src.toNat).lastSeq ≠ some f.sequence ∧
        u = settle (applySample f (putStation f.src.toNat
          { getStation t f.src.toNat with lastSeq := some f.sequence } t))) ∨
      (((getStation t f.src.toNat).entry = none ∨
        (getStation t f.src.toNat).lastSeq = some f.sequence) ∧ u = settle t)) →
    (destination t p f = .across →
      exec (.sample p bytes) s = .next (settle (forwardFrame p f u))) ∧
    (destination t p f ≠ .across → exec (.sample p bytes) s = .next (settle u))

/-- R27: each pair of an applied frame sets the point its slot is mapped to, FRESH with age 0, unless
there is no such entry or the point is FORCED; the last pair for a point decides; every other point is
as it was; and the frame makes one change event naming exactly the points whose value or quality
changed, or none. -/
def Obligations.SamplePairsSetTheirPoints : Prop :=
  ∀ (f : Frame) (s : State) (ws : List (Nat × Word16)),
    ws = f.pairs.filterMap (fun q =>
      (s.pointMap.find? (fun e => decide (e.2.station = f.src.toNat) && decide (e.2.slot = q.1))).bind
        (fun e => if (getPoint s e.2.point).quality = .forced then none
          else some (e.2.point, q.2))) →
    (∀ n, getPoint (applySample f s) n = match (ws.filter (fun w => decide (w.1 = n))).getLast? with
      | some w => { value := w.2, quality := .fresh, age := 0 }
      | none => getPoint s n) ∧
    ((∀ n, (getPoint (applySample f s) n).value = (getPoint s n).value ∧
        (getPoint (applySample f s) n).quality = (getPoint s n).quality) →
      (applySample f s).events = s.events) ∧
    ((∃ n, (getPoint (applySample f s) n).value ≠ (getPoint s n).value ∨
        (getPoint (applySample f s) n).quality ≠ (getPoint s n).quality) →
      ∃ names, (applySample f s).events = s.events ++ [names] ∧
        ∀ n, n ∈ names ↔ ((getPoint (applySample f s) n).value ≠ (getPoint s n).value ∨
          (getPoint (applySample f s) n).quality ≠ (getPoint s n).quality))

/-- R6 Table 1-6, R9: a VOICE frame at the B-port is consumed by the calling unit; at the D-port it is
forwarded unchanged when its destination is across, and otherwise discarded. R7: a REPORT frame, and an
ORDER that arrives at the D-port for an address other than station 0, is forwarded unjudged when its
destination is across, and otherwise discarded. -/
def Obligations.OtherFramesAreConsumedOrCarried : Prop :=
  (∀ (p : Port) (bytes : List Byte) (f : Frame) (s t : State), Arrives p bytes f s t →
     f.kind = .voice →
     (p = .b → exec (.voice p bytes) s =
       .next (settle (produce (Call.onVoice t f.channel (f.samples.map BitVec.toInt)) t))) ∧
     (p = .d → destination t p f = .across → exec (.voice p bytes) s = .next (settle (offerDToB f t))) ∧
     (p = .d → destination t p f ≠ .across → exec (.voice p bytes) s = .next (settle t))) ∧
  (∀ (p : Port) (bytes : List Byte) (f : Frame) (s t : State), Arrives p bytes f s t →
     (f.kind = .report → destination t p f = .across →
       exec (.report p bytes) s = .next (settle (forwardFrame p f t))) ∧
     (f.kind = .report → destination t p f ≠ .across →
       exec (.report p bytes) s = .next (settle t)) ∧
     (f.kind = .order → p = .d → f.dest ≠ 0 → destination t p f = .across →
       exec (.orderToBridge p bytes) s = .next (settle (offerDToB f t))) ∧
     (f.kind = .order → p = .d → f.dest ≠ 0 → destination t p f ≠ .across →
       exec (.orderToBridge p bytes) s = .next (settle t)))

/-- R11, R112: when the D-port transmitter finishes a frame, an ORDER is handed to the door monitor, and
the oldest frame of the safety queue, else of the voice queue, else of the forward queue is taken; a
frame taken from the safety queue announces room (R13). An idle transmitter finishes nothing. The order
door monitor, next frame, change events is the model's choice (assumption 41). -/
def Obligations.DPortTakesNextFrame : Prop :=
  (∀ (s u : State) (g : Frame), s.link.dTx = some g →
    u = orderSent g { s with link := { s.link with dTx := none } } → u.link.dTx = none →
    (∀ f rest, u.link.safety = f :: rest → exec .dPortFrameSent s = .next (settle
      (announceRoom { u with link := { u.link with safety := rest, dTx := some f } }))) ∧
    (∀ f rest, u.link.safety = [] → u.link.voice = f :: rest → exec .dPortFrameSent s =
      .next (settle { u with link := { u.link with voice := rest, dTx := some f } })) ∧
    (∀ f rest, u.link.safety = [] → u.link.voice = [] → u.link.forward = f :: rest →
      exec .dPortFrameSent s =
        .next (settle { u with link := { u.link with forward := rest, dTx := some f } })) ∧
    (u.link.safety = [] → u.link.voice = [] → u.link.forward = [] →
      exec .dPortFrameSent s = .next (settle u))) ∧
  (∀ s : State, s.link.dTx = none → exec .dPortFrameSent s = .next (settle s))

/-- R15: when the B-port transmitter finishes a frame it takes the oldest ALARM report; else the oldest
frame of the queue its turn names; else the oldest of the other queue. After a report the turn is
FORWARD, after a forwarded frame it is REPORT; a report leaves with the overflow mark, which is then
clear (R173). R172, R173: a report joins a queue of fewer than 32; a full queue drops a ROUTINE report,
displaces its oldest ROUTINE report for an ALARM report, and drops an ALARM report when it holds ALARM
reports alone; each drop or displacement sets the overflow mark. -/
def Obligations.ReportsJoinAndLeaveTheirQueue : Prop :=
  (∀ (s u : State) (g : Frame), s.link.bTx = some g →
    u = { s with link := { s.link with bTx := none } } →
    (∀ older r newer, s.reports = older ++ r :: newer → (∀ x ∈ older, x.alarm = false) →
      r.alarm = true → exec .bPortFrameSent s = .next (settle { u with
        reports := older ++ newer, overflow := false
        link := { u.link with bTx := some (reportFrame s r), turn := .forward } })) ∧
    (∀ r rest, s.reports = r :: rest → (∀ x ∈ s.reports, x.alarm = false) →
      (s.link.turn = .report ∨ s.link.dToB = []) → exec .bPortFrameSent s = .next (settle { u with
        reports := rest, overflow := false
        link := { u.link with bTx := some (reportFrame s r), turn := .forward } })) ∧
    (∀ f rest, s.link.dToB = f :: rest → (∀ x ∈ s.reports, x.alarm = false) →
      (s.link.turn = .forward ∨ s.reports = []) → exec .bPortFrameSent s = .next (settle { u with
        link := { u.link with dToB := rest, bTx := some f, turn := .report } })) ∧
    (s.reports = [] → s.link.dToB = [] → exec .bPortFrameSent s = .next (settle u))) ∧
  (∀ (r : Report) (s : State),
    (s.reports.length < 32 → admitReport r s = { s with reports := s.reports ++ [r] }) ∧
    (s.reports.length = 32 → r.alarm = false → admitReport r s = { s with overflow := true }) ∧
    (∀ alarms q rest, s.reports.length = 32 → s.reports = alarms ++ q :: rest →
      (∀ x ∈ alarms, x.alarm = true) → q.alarm = false → r.alarm = true →
      admitReport r s = { s with reports := alarms ++ rest ++ [r], overflow := true }) ∧
    (s.reports.length = 32 → (∀ x ∈ s.reports, x.alarm = true) → r.alarm = true →
      admitReport r s = { s with overflow := true }))

/-- R12, R16: a forward queue that holds fewer than 16 frames takes an offered frame at its tail (and a free
transmitter takes its next frame at once); a full D-port forward queue refuses a passed order QUEUE_FULL
and disturbs nothing; a full queue displaces its oldest frame that is no ORDER for any other frame, and
drops the offered one when every frame it holds is an ORDER. R13, R14: the safety queue takes a frame
while it holds fewer than 8 and otherwise refuses it; the voice queue takes a frame while it holds fewer
than 4 and otherwise drops it; a refusal and a drop change nothing at all. -/
def Obligations.TransmitQueuesAdmitAndDisplace : Prop :=
  (∀ (f : Frame) (s : State),
     (s.link.forward.length < 16 → offerOrder f s =
         (kickD { s with link := { s.link with forward := s.link.forward ++ [f] } }, true) ∧
       offerForward f s =
         kickD { s with link := { s.link with forward := s.link.forward ++ [f] } }) ∧
     (s.link.forward.length = 16 → offerOrder f s = (s, false) ∧
       (f.dest ≠ 0 → passOrder f s = (s, some .queueFull))) ∧
     (∀ orders g rest, s.link.forward.length = 16 → s.link.forward = orders ++ g :: rest →
       (∀ x ∈ orders, x.kind = .order) → g.kind ≠ .order →
       offerForward f s =
         kickD { s with link := { s.link with forward := orders ++ rest ++ [f] } }) ∧
     (s.link.forward.length = 16 → (∀ x ∈ s.link.forward, x.kind = .order) → offerForward f s = s) ∧
     (s.link.dToB.length < 16 → offerDToB f s =
       kickB { s with link := { s.link with dToB := s.link.dToB ++ [f] } }) ∧
     (∀ orders g rest, s.link.dToB.length = 16 → s.link.dToB = orders ++ g :: rest →
       (∀ x ∈ orders, x.kind = .order) → g.kind ≠ .order →
       offerDToB f s = kickB { s with link := { s.link with dToB := orders ++ rest ++ [f] } }) ∧
     (s.link.dToB.length = 16 → (∀ x ∈ s.link.dToB, x.kind = .order) → offerDToB f s = s) ∧
     (s.link.dTx ≠ none → kickD s = s) ∧ (s.link.bTx ≠ none → kickB s = s)) ∧
  (∀ (f : Frame) (s : State),
     (s.link.safety.length < 8 → offerSafety f s =
       (kickD { s with link := { s.link with safety := s.link.safety ++ [f] } }, true)) ∧
     (8 ≤ s.link.safety.length → offerSafety f s = (s, false)) ∧
     (s.link.voice.length < 4 → offerVoice f s =
       kickD { s with link := { s.link with voice := s.link.voice ++ [f] } }) ∧
     (4 ≤ s.link.voice.length → offerVoice f s = s))

/-- R17, R18: at the declaration of bridge silence the state is SILENT and point 697 is 0; then fault class
BRIDGE_SILENT, the axes' stop with BRIDGE_SILENT and the refusal of every held order. R20, R29: an ONLINE
station whose silence count has reached its limit becomes SILENT: its sequence is absent, every FRESH
point mapped to it is STALE with its value kept, STATION_SILENT is told and a STATION report is queued.
The order of these tellings and reports within the event is the model's choice (assumption 11), and so is
that a FAULT report of BRIDGE_SILENT names no contributor (assumption 43). -/
def Obligations.SilenceIsDeclared : Prop :=
  (∀ s : State, s.link.bridge = .heard → s.link.silenceDue = true →
     exec .bridgeSilence s = .next (settle (refuseHeld .bridgeSilent (announceAll .bridgeSilent
       (tell [.bridgeSilent] .none (writePoints [(697, 0)]
         { s with link := { s.link with bridge := .silent, silenceDue := false } })))))) ∧
  (∀ (n : Nat) (e : StationEntry) (s u : State), (getStation s n).entry = some e →
     (getStation s n).state = .online → e.limit ≤ (getStation s n).count →
     u = putStation n { getStation s n with
       state := .silent, lastSeq := none, silenceFlag := true } s →
     exec (.stationSilence n) s = .next (settle (offerReport ⟨false, .station .silent n e.side⟩
       (tell [.stationSilent] (.station n) (staleStation n u)))) ∧
     (∀ k, getPoint (staleStation n u) k =
       if (getPoint s k).quality = .fresh ∧ ∃ m ∈ s.pointMap, m.2.station = n ∧ m.2.point = k
       then { getPoint s k with quality := .stale } else getPoint s k))

/-! ## Chapter 2: the point image -/

/-- R30, R31, R165: FORCE_POINT on a point 0-511 gives it the value, FORCED, with age 0; RELEASE_POINT turns
a FORCED point 0-511 STALE with its value and age, and leaves another as it is; both are answered OK.
From 512 on both are answered RANGE and change nothing else. R23: an image in which one point is set reads
as it was set, and makes one change event naming the point if its value or quality changed. The change
event is taken before the REPLY is queued (the model's choice, assumption 47). -/
def Obligations.ForceAndReleasePoint : Prop :=
  (∀ (r : Request) (rest : List Request) (s : State), s.manage = r :: rest →
     (∀ n v, r.body = .forcePoint n v → n ≤ 511 → exec .forcePoint s = .next (completed r .ok []
       (setImage (putPoint s.points n { value := v, quality := .forced, age := 0 }) [n] s))) ∧
     (∀ n v, r.body = .forcePoint n v → 512 ≤ n →
       exec .forcePoint s = .next (completed r .range [] s)) ∧
     (∀ n, r.body = .releasePoint n → n ≤ 511 → (getPoint s n).quality = .forced →
       exec .releasePoint s = .next (completed r .ok []
         (setImage (putPoint s.points n { getPoint s n with quality := .stale }) [n] s))) ∧
     (∀ n, r.body = .releasePoint n → n ≤ 511 → (getPoint s n).quality ≠ .forced →
       exec .releasePoint s = .next (completed r .ok [] s)) ∧
     (∀ n, r.body = .releasePoint n → 512 ≤ n →
       exec .releasePoint s = .next (completed r .range [] s))) ∧
  (∀ (n : Nat) (x : Point) (s t : State), t = setImage (putPoint s.points n x) [n] s →
     getPoint t n = x ∧ (∀ k, k ≠ n → getPoint t k = getPoint s k) ∧
     ((x.value ≠ (getPoint s n).value ∨ x.quality ≠ (getPoint s n).quality) →
       t = { s with points := putPoint s.points n x, events := s.events ++ [[n]] }) ∧
     (x.value = (getPoint s n).value → x.quality = (getPoint s n).quality →
       t = { s with points := putPoint s.points n x }))

/-- R30: a FORCED field point keeps its value and its FORCED quality through every command but
FORCE_POINT, RELEASE_POINT and POWER_ON_RESET. -/
def Obligations.ForcedPointStandsUntilReleased : Prop :=
  ∀ (c : Instr) (s t : State) (n : Nat), endsForcing c = false → exec c s = .next t → n ≤ 511 →
    (getPoint s n).quality = .forced →
    (getPoint t n).quality = .forced ∧ (getPoint t n).value = (getPoint s n).value

/-- R22, R26 to R31, R36, R37: no well-formed command but SAMPLE, STALE_LIMIT, STATION_SILENCE,
WRITE_ENTRY, CLEAR_ENTRY, FORCE_POINT, RELEASE_POINT, TICK_10_MS, RESTART and POWER_ON_RESET changes the
value, the quality or the age of a field point. -/
def Obligations.FieldPointsKeptByOtherCommands : Prop :=
  ∀ (c : Instr) (s t : State) (n : Nat), c.wf = true → touchesFieldPoints c = false →
    exec c s = .next t → n ≤ 511 → getPoint t n = getPoint s n

/-- R22, R34, R138: a 10 ms tick adds one, up to 65535, to the age of every point that is not NEVER, counts
one tick of every PAUSE10 wait, and then, for each axis in number order, refreshes points 2, 3 and 5 (ages
first: the model's choice, assumption 34); of a field point no value and no quality changes. R33, R34: the
refresh writes those of the three whose value differs or that are NEVER, FRESH with age 0, and makes one
change event naming exactly those, or none. R28: at the stale limit every FRESH field point that a Point
Map entry targets, and whose age has reached ten times that entry's limit, becomes STALE with its value
and age kept; no other field point changes. -/
def Obligations.AgesAndStaleLimitsOfFieldPoints : Prop :=
  (∀ s : State, ∃ t, exec .tick10Ms s = .next t ∧ ∀ n, n ≤ 511 → getPoint t n =
     if (getPoint s n).quality = .never then getPoint s n
     else { getPoint s n with age := min 65535 ((getPoint s n).age + 1) }) ∧
  (∀ s t : State, t = { s with
       points := s.points.map (fun e => (e.1, if e.2.quality = .never then e.2
         else { e.2 with age := min 65535 (e.2.age + 1) }))
       zones := s.zones.map (fun e => (e.1, { e.2 with wait := match e.2.wait with
         | .pause10 n => .pause10 (n - 1)
         | w => w })) } →
     exec .tick10Ms s = .next (settle (publishAxis 3 [2, 3, 5] (publishAxis 2 [2, 3, 5]
       (publishAxis 1 [2, 3, 5] (publishAxis 0 [2, 3, 5] t)))))) ∧
  (∀ (a : AxisId) (s t : State) (q : Nat → Nat) (due : Nat → Prop), t = publishAxis a [2, 3, 5] s →
     q 2 = (getAxis s a).scaled (getAxis s a).fp → q 3 = axisSpeed s (getAxis s a) →
     q 5 = (getAxis s a).scaled (getAxis s a).latchFP →
     (∀ n, due n ↔ ∃ k, (k = 2 ∨ k = 3 ∨ k = 5) ∧ n = 512 + 8 * a.val + k ∧
       ((getPoint s n).quality = .never ∨ (getPoint s n).value ≠ BitVec.ofNat 16 (q k))) →
     (∀ k, due (512 + 8 * a.val + k) → getPoint t (512 + 8 * a.val + k) =
       { value := BitVec.ofNat 16 (q k), quality := .fresh, age := 0 }) ∧
     (∀ n, ¬due n → getPoint t n = getPoint s n) ∧
     ((∀ n, ¬due n) → t.events = s.events) ∧
     ((∃ n, due n) → ∃ names, t.events = s.events ++ [names] ∧ ∀ n, n ∈ names ↔ due n)) ∧
  (∀ s : State, ∃ t, exec .staleLimit s = .next t ∧ ∀ n, n ≤ 511 → getPoint t n =
     if (getPoint s n).quality = .fresh ∧
         ∃ m ∈ s.pointMap, m.2.point = n ∧ 10 * m.2.limit ≤ (getPoint s n).age
     then { getPoint s n with quality := .stale } else getPoint s n)

/-! ## Chapter 3: orders -/

/-- R48: a term is false on NONE and on a NEVER point; on a STALE point its policy decides, VALUE going
on to the comparison; on a FRESH or FORCED point the masked values are compared. -/
def Obligations.TermFollowsQualityAndPolicy : Prop :=
  ∀ (s : State) (t : Term),
    (t.point = none → evalTerm s t = false) ∧
    (∀ n, t.point = some n → (getPoint s n).quality = .never → evalTerm s t = false) ∧
    (∀ n, t.point = some n → (getPoint s n).quality = .stale → t.stale = .asFalse →
      evalTerm s t = false) ∧
    (∀ n, t.point = some n → (getPoint s n).quality = .stale → t.stale = .asTrue →
      evalTerm s t = true) ∧
    (∀ n, t.point = some n → ((getPoint s n).quality = .fresh ∨ (getPoint s n).quality = .forced ∨
        ((getPoint s n).quality = .stale ∧ t.stale = .useValue)) →
      evalTerm s t = match t.cond with
        | .always => true
        | .never => false
        | .eq => decide ((getPoint s n).value &&& t.mask = t.value &&& t.mask)
        | .ne => decide ((getPoint s n).value &&& t.mask ≠ t.value &&& t.mask)
        | .gt => decide (((getPoint s n).value &&& t.mask).toNat > (t.value &&& t.mask).toNat)
        | .ge => decide (((getPoint s n).value &&& t.mask).toNat ≥ (t.value &&& t.mask).toNat)
        | .lt => decide (((getPoint s n).value &&& t.mask).toNat < (t.value &&& t.mask).toNat)
        | .le => decide (((getPoint s n).value &&& t.mask).toNat ≤ (t.value &&& t.mask).toNat))

/-- R49, R50: the index weighs the true terms 1, 2, 4 and 8; the selector chooses T1 or T0; the selected bit
is the bit of the chosen table numbered by the index; the mark FORCED-INPUT is set when a term point or
the selector point is FORCED. R47: the rule found is the first in the table's order whose origin,
destination, code and device range all hold, and no rule is found only when none holds. -/
def Obligations.RuleLookupAndSelectedBit : Prop :=
  (∀ (s : State) (r : Rule),
     (evalRule s r).1.index =
       (if evalTerm s r.t0 then 1 else 0) + (if evalTerm s r.t1 then 2 else 0) +
       (if evalTerm s r.t2 then 4 else 0) + (if evalTerm s r.t3 then 8 else 0) ∧
     (evalRule s r).1.index ≤ 15 ∧ (∀ t : Term, t.point = none → evalTerm s t = false) ∧
     (r.selector = none → (evalRule s r).1.t1 = true) ∧
     (∀ n b, r.selector = some (n, b) →
       ((getPoint s n).quality = .fresh ∨ (getPoint s n).quality = .forced) →
       (evalRule s r).1.t1 = (getPoint s n).value.getLsbD b) ∧
     (∀ n b, r.selector = some (n, b) →
       ((getPoint s n).quality = .never ∨ (getPoint s n).quality = .stale) →
       (evalRule s r).1.t1 = false) ∧
     (evalRule s r).2 =
       (if (evalRule s r).1.t1 then r.tt1 else r.tt0).getLsbD (evalRule s r).1.index ∧
     ((evalRule s r).1.forced = true ↔ ∃ n ∈ r.reads, (getPoint s n).quality = .forced)) ∧
  (∀ (s : State) (o : Port) (f : Frame), let holds := fun (r : Rule) =>
       (r.origin = none ∨ r.origin = some o) ∧ (r.dest = none ∨ r.dest = some f.dest.toNat) ∧
       (r.code = none ∨ r.code = some f.code) ∧ r.devLow ≤ f.device ∧ f.device ≤ r.devHigh
     (∀ n r, lookupRule s o f = some (n, r) ↔ ∃ before after,
       s.rules = before ++ (n, r) :: after ∧ holds r ∧ ∀ e ∈ before, ¬holds e.2) ∧
     (lookupRule s o f = none ↔ ∀ e ∈ s.rules, ¬holds e.2))

/-- R7, R41, R51: a DOOR_CLOSE, DOOR_OPEN or output order at the B-port that passes and finds room in the
forward queue is forwarded, with its PASSED report when the rule notifies; one with a local destination
is discarded (Table 1-6). -/
def Obligations.PassedStationOrderIsForwarded : Prop :=
  ∀ (bytes : List Byte) (f : Frame) (s t : State), Arrives .b bytes f s t → f.kind = .order →
    f.dest ≠ 0 →
    (destination t .b f = .across → PassesJudgement f .b t → t.link.forward.length < 16 →
      (f.code = 0x10 → exec (.doorClose .b bytes) s = .next (settle (passNote t f .b
        (kickD { t with link := { t.link with forward := t.link.forward ++ [f] } })))) ∧
      (f.code = 0x11 → exec (.doorOpen .b bytes) s = .next (settle (passNote t f .b
        (kickD { t with link := { t.link with forward := t.link.forward ++ [f] } })))) ∧
      (f.code ≠ 0x10 → f.code ≠ 0x11 → exec (.outputOrder .b bytes) s = .next (settle (passNote t f .b
        (kickD { t with link := { t.link with forward := t.link.forward ++ [f] } }))))) ∧
    (destination t .b f = .near →
      (f.code = 0x10 → exec (.doorClose .b bytes) s = .next (settle t)) ∧
      (f.code = 0x11 → exec (.doorOpen .b bytes) s = .next (settle t)) ∧
      (f.code ≠ 0x10 → f.code ≠ 0x11 → exec (.outputOrder .b bytes) s = .next (settle t)))

/-- R41 to R44, R47, R52: the refusals of a judged order in their sequence: MODE, NO_SUCH at the decode,
GATED, the default verdict REFUSE, and by a rule whose selected bit is 0 RULE, or HOLD_FULL with eight
entries held. An unknown order to the part is refused TARGET, NO_SUCH in RUN. -/
def Obligations.JudgedOrderIsRefusedInSequence : Prop :=
  ∀ (p : Port) (bytes : List Byte) (f : Frame) (s t : State), Arrives p bytes f s t →
    f.kind = .order → destination t p f ≠ .near → (p = .b ∨ f.dest = 0) →
    (modeAllows t.mode f = false →
      exec (frameCommand (rowOf p f) p bytes) s = .next (settle (refuse .mode f p none none t))) ∧
    (modeAllows t.mode f = true → f.dest = 0 → decodes f = false →
      exec (frameCommand (rowOf p f) p bytes) s =
        .next (settle (refuse (.target .noSuch) f p none none t))) ∧
    (t.mode = .run → rowOf p f = .unknownOrder →
      exec (.unknownOrderToPart p bytes) s =
        .next (settle (refuse (.target .noSuch) f p none none t))) ∧
    (modeAllows t.mode f = true → (f.dest = 0 → decodes f = true) → gateBars t f = true →
      exec (frameCommand (rowOf p f) p bytes) s = .next (settle (refuse .gated f p none none t))) ∧
    (modeAllows t.mode f = true → (f.dest = 0 → decodes f = true) → gateBars t f = false →
      lookupRule t p f = none → t.settings.verdict = .refuse →
      exec (frameCommand (rowOf p f) p bytes) s = .next (settle (refuse .default f p none none t))) ∧
    (∀ n r, modeAllows t.mode f = true → (f.dest = 0 → decodes f = true) → gateBars t f = false →
      lookupRule t p f = some (n, r) → (evalRule t r).2 = false →
      (r.verdict = .refuse → exec (frameCommand (rowOf p f) p bytes) s =
        .next (settle (refuse .rule f p (some n) (some (evalRule t r).1) t))) ∧
      (r.verdict = .hold → 8 ≤ t.hold.length → exec (frameCommand (rowOf p f) p bytes) s =
        .next (settle (refuse .holdFull f p (some n) (some (evalRule t r).1) t))) ∧
      (r.verdict = .hold → t.hold.length < 8 → exec (frameCommand (rowOf p f) p bytes) s =
        .next (settle (reportVerdict .held f p (some n) (some (evalRule t r).1) { t with
          hold := t.hold ++ [{ frame := f, origin := p, rule := n, remaining := r.holdLimit
                               eval := (evalRule t r).1, marked := false }] }))))

/-- R55: an event makes the held orders due whose rule reads a named point; they are re-evaluated one by
one, oldest first; the entries before the first whose selected bit is 1 keep their places with their new
evaluations; that one leaves the queue and is released before the next is re-evaluated; where none
passes, all keep their places. -/
def Obligations.FirstHeldOrderThatPassesIsReleased : Prop :=
  (∀ (names : List Nat) (s : State), heldOnEvent names s = reevaluateWith s.hold.length { s with
     hold := s.hold.map (fun h => match Tab.get? s.rules h.rule with
       | some r => { h with marked := h.marked || r.reads.any (fun n => decide (n ∈ names)) }
       | none => h) }) ∧
  (∀ (s : State) (before after : List HoldEntry) (h : HoldEntry) (r : Rule) (n : Nat)
     (seen : HoldEntry → HoldEntry),
     s.hold = before ++ h :: after → h.marked = true → Tab.get? s.rules h.rule = some r →
     (evalRule s r).2 = true →
     (∀ g ∈ before, g.marked = true → ∃ q, Tab.get? s.rules g.rule = some q ∧
       (evalRule s q).2 = false) →
     (∀ g, seen g = if g.marked then
         { g with marked := false, eval := match Tab.get? s.rules g.rule with
           | some q => (evalRule s q).1
           | none => g.eval } else g) →
     reevaluateWith ((before.filter (fun g => g.marked)).length + 1 + n) s =
       reevaluateWith n (releaseEntry { h with marked := false, eval := (evalRule s r).1 }
         { s with hold := before.map seen ++ after })) ∧
  (∀ (s : State) (n : Nat), s.hold.length ≤ n →
     (∀ g ∈ s.hold, g.marked = true → ∀ q, Tab.get? s.rules g.rule = some q →
       (evalRule s q).2 = false) →
     reevaluateWith n s = { s with hold := s.hold.map (fun g => if g.marked then
         { g with marked := false, eval := match Tab.get? s.rules g.rule with
           | some q => (evalRule s q).1
           | none => g.eval } else g) })

/-- R56: a released order meets the gate check again, refused GATED where it fails; then it is forwarded
or delivered with a RELEASED report, or refused with its reason; and re-evaluation goes on. That
HOLD_RELEASE re-evaluates every held order whose rule reads a point is the model's choice (assumption 2);
that the refusals at release carry the entry's rule and evaluation is the model's reading
(assumption 27). -/
def Obligations.PassedHeldOrderIsReleased : Prop :=
  (∀ s : State, exec .holdRelease s = .next (settle (reevaluateWith s.hold.length { s with
     hold := s.hold.map (fun h => match Tab.get? s.rules h.rule with
       | some r => { h with marked := h.marked || !r.reads.isEmpty }
       | none => h) }))) ∧
  (∀ (s t : State) (h : HoldEntry) (after : List HoldEntry) (r : Rule) (e : Evaluation),
    s.hold = h :: after → Tab.get? s.rules h.rule = some r → r.reads ≠ [] →
    evalRule s r = (e, true) →
    t = { s with hold := after.map (fun g => match Tab.get? s.rules g.rule with
      | some q => { g with marked := g.marked || !q.reads.isEmpty }
      | none => g) } →
    (gateBars t h.frame = true → exec .holdRelease s = .next (settle (reevaluateWith after.length
      (refuse .gated h.frame h.origin (some h.rule) (some e) t)))) ∧
    (gateBars t h.frame = false → h.frame.dest ≠ 0 → t.link.forward.length < 16 →
      exec .holdRelease s = .next (settle (reevaluateWith after.length
        (reportVerdict .released h.frame h.origin (some h.rule) (some e)
          (kickD { t with link := { t.link with forward := t.link.forward ++ [h.frame] } }))))) ∧
    (gateBars t h.frame = false → h.frame.dest ≠ 0 → 16 ≤ t.link.forward.length →
      exec .holdRelease s = .next (settle (reevaluateWith after.length
        (refuse .queueFull h.frame h.origin (some h.rule) (some e) t)))) ∧
    (∀ u, gateBars t h.frame = false → h.frame.dest = 0 → deliver h.frame t = (u, none) →
      exec .holdRelease s = .next (settle (reevaluateWith after.length
        (reportVerdict .released h.frame h.origin (some h.rule) (some e) u)))) ∧
    (∀ u x, gateBars t h.frame = false → h.frame.dest = 0 → deliver h.frame t = (u, some x) →
      exec .holdRelease s = .next (settle (reevaluateWith after.length
        (refuse (.target x) h.frame h.origin (some h.rule) (some e) u)))))

/-- R57: the entries whose remaining time is 0 leave the queue and are refused HOLD_EXPIRED, oldest
first, each with the index, table and mark it holds. -/
def Obligations.ExpiredHeldOrdersAreRefused : Prop :=
  ∀ s : State, exec .holdExpired s = .next (settle
    ((s.hold.filter (fun h => decide (h.remaining = 0))).foldl
      (fun t h => offerReport ⟨refusalAlarm t .holdExpired (some h.rule),
        .verdict .refused (some .holdExpired) h.frame h.origin (some h.rule) (some h.eval)⟩ t)
      { s with hold := s.hold.filter (fun h => decide (h.remaining ≠ 0)) }))

/-- R24: where nothing waits for a point change, the change events are taken without any effect. -/
def Obligations.EventsWithoutReceiversChangeNothing : Prop :=
  ∀ s : State, NoReceivers s → s.events.length ≤ 1024 → settle s = { s with events := [] }

/-! ## Chapter 4: moves and profiles -/

/-- R67, R68, R66: a MOVE that its axis takes joins the tail of the move list with its stored end, the
target or the base plus the distance; with the run latch set the oldest pending move may start (R71), and
the axis's points that have changed are written once (R32, R34; assumption 31). -/
def Obligations.MoveJoinsTheMoveList : Prop :=
  ∀ (p : Port) (bytes : List Byte) (f : Frame) (s t : State) (m : Move) (cfg : AxisCfg) (x : Axis)
    (e : Int), Arrives p bytes f s t → f.kind = .order → f.dest = 0 → f.code = 0x20 →
    PassesJudgement f p t → decodeMove f.tag f.args = some m → x = getAxis t (axisOf f) →
    x.cfg = some cfg → x.state ≠ .disabled → x.state ≠ .fault → cfg.coupling = none →
    x.pending.length < 2 →
    (m.relative = false → e = m.target) →
    (∀ older q, m.relative = true → x.pending = older ++ [q] → e = q.dest + m.target) →
    (∀ c, m.relative = true → x.pending = [] → x.state = .moving → x.current = some c →
      e = c.move.dest + m.target) →
    (m.relative = true → x.pending = [] → (x.state ≠ .moving ∨ x.current = none) →
      e = x.cp + m.target) →
    -8388608 ≤ e → e ≤ 8388607 → cfg.low ≤ e → e ≤ cfg.high →
    exec (.move p bytes) s = .next (settle (passNote t f p (startPending [] (axisOf f)
      (setAxis (axisOf f) { x with pending := x.pending ++ [{ m with dest := e }] } t)))) ∧
    (x.latch = false → exec (.move p bytes) s = .next (settle (passNote t f p
      (publishAxis (axisOf f) [0, 1, 6, 7] (setAxis (axisOf f)
        { x with pending := x.pending ++ [{ m with dest := e }] } t)))))

/-- R70: an AXIS_GO that its axis takes sets the run latch and starts the oldest pending move of an axis that
is IDLE or FLOAT; an axis without one, or in motion, is otherwise left as it is. R73, R71, R66: the start
of a move of an axis at rest without followers, whose end is not where it stands and with no end limit
asserted ahead: the clamped speeds, the start, direction and distance, the accumulators, the starting
phase by R78, state MOVING, the points, and the telling of the calling unit; with followers, none of them
in FAULT, their runs begin after that, in ascending number (the model's choice, assumption 39). R102: a
follower that is IDLE or FLOAT begins a run with the move's tag, CP at FP and its own direction, and the
calling unit is told; any other begins none. R73, R94, R101: the one
pending move of an axis in FLOAT that ends where the axis stands, or that leads toward an asserted limit,
ends at its start DONE or LIMIT with its report, and the axis is IDLE with CP at FP. By the model's choice
the limit inputs are those of the latest inputs stage (assumption 15), DONE comes before a follower's
FAULT and that before LIMIT (assumption 12), and in each case the changed points of the axis are one
change event (assumption 31). -/
def Obligations.AxisGoStartsTheOldestMove : Prop :=
  (∀ (p : Port) (bytes : List Byte) (f : Frame) (s t u : State) (x : Axis), Arrives p bytes f s t →
     f.kind = .order → f.dest = 0 → f.code = 0x21 → f.args = [] → PassesJudgement f p t →
     x = getAxis t (axisOf f) → x.state ≠ .disabled → x.state ≠ .fault → x.isFollower = false →
     u = setAxis (axisOf f) { x with latch := true } t →
     exec (.axisGo p bytes) s =
       .next (settle (passNote t f p (startPending [] (axisOf f) u))) ∧
     ((x.pending = [] ∨ (x.state ≠ .idle ∧ x.state ≠ .float)) →
       exec (.axisGo p bytes) s =
         .next (settle (passNote t f p (publishAxis (axisOf f) [0, 1, 6, 7] u))))) ∧
  (∀ (a : AxisId) (s : State) (x : Axis) (cfg : AxisCfg) (m : Move) (rest : List Move) (c : Current),
     x = getAxis s a → x.cfg = some cfg → x.pending = m :: rest → x.latch = true → x.state = .idle →
     followersOf s a = [] → m.dest ≠ x.cp →
     (x.cp < m.dest → x.inputs.upper = false) → (m.dest < x.cp → x.inputs.lower = false) →
     c = { move := m, vc := min m.vc cfg.vmax, vs := min m.vs (min m.vc cfg.vmax)
           vk := max 1 (min m.vk (min m.vc cfg.vmax)), dec := if m.dec = 0 then m.acc else m.dec
           start := x.cp, up := decide (x.cp < m.dest), dist := (m.dest - x.cp).natAbs
           vacc := min m.vs (min m.vc cfg.vmax) * 1000, pacc := 0 } →
     startPending [] a s = tellMoving a (publishAxis a [0, 1, 6, 7] (setAxis a { x with
       pending := rest, current := some c, stop := none, state := .moving, dirUp := c.up
       phase := phaseDecision c (if c.vs = c.vc then .cruise else .accel) } s))) ∧
  (∀ (a : AxisId) (s : State) (x : Axis) (cfg : AxisCfg) (m : Move) (o : MoveOutcome),
     x = getAxis s a → x.cfg = some cfg → x.pending = [m] → x.latch = true → x.state = .float →
     ((o = .done ∧ m.dest = x.fp) ∨ (o = .limit ∧ m.dest ≠ x.fp ∧ followersOf s a = [] ∧
       ((x.fp < m.dest ∧ x.inputs.upper = true) ∨ (m.dest < x.fp ∧ x.inputs.lower = true)))) →
     ∃ up, startPending [] a s = publishAxis a [0, 1, 6, 7] (offerReport ⟨false, .axis a m.tag o x.fp⟩
       (setAxis a { x with cp := x.fp, fe := 0, state := .idle, phase := .none, pending := []
                           lastOutcome := some o, dirUp := up } s))) ∧
  (∀ (a : AxisId) (s : State) (x : Axis) (cfg : AxisCfg) (m : Move) (rest : List Move) (c : Current)
     (p : Phase), x = getAxis s a → x.cfg = some cfg → x.pending = m :: rest → x.latch = true →
     x.state = .idle → (∀ b ∈ followersOf s a, (getAxis s b).state ≠ .fault) → m.dest ≠ x.cp →
     (x.cp < m.dest → x.inputs.upper = false) → (m.dest < x.cp → x.inputs.lower = false) →
     c = { move := m, vc := min m.vc cfg.vmax, vs := min m.vs (min m.vc cfg.vmax)
           vk := max 1 (min m.vk (min m.vc cfg.vmax)), dec := if m.dec = 0 then m.acc else m.dec
           start := x.cp, up := decide (x.cp < m.dest), dist := (m.dest - x.cp).natAbs
           vacc := min m.vs (min m.vc cfg.vmax) * 1000, pacc := 0 } →
     p = phaseDecision c (if c.vs = c.vc then .cruise else .accel) →
     startPending [] a s = (followersOf s a).foldl (fun t b => beginRun c p b t)
       (tellMoving a (publishAxis a [0, 1, 6, 7] (setAxis a { x with
         pending := rest, current := some c, stop := none, state := .moving, dirUp := c.up
         phase := p } s)))) ∧
  (∀ (b : AxisId) (s : State) (x : Axis) (k : Coupling) (c : Current) (p : Phase) (up : Bool),
     x = getAxis s b → x.coupling = some k → up = (if k.opposite then !c.up else c.up) →
     ((x.state = .idle ∨ x.state = .float) → beginRun c p b s = tellMoving b
       (publishAxis b [0, 1, 6, 7] (setAxis b { x with
         cp := x.fp, fe := 0, state := .moving, phase := p, dirUp := up
         run := some { tag := c.move.tag, up := up, e := 0 } } s))) ∧
     (x.state ≠ .idle → x.state ≠ .float → beginRun c p b s = s))

/-- R81 Table 4-8, R79, R80, R102: an AXIS_STOP that its axis takes clears the run latch and acts by
state: slow, a MOVING axis above its VS begins STOPPING with outcome STOPPED and otherwise comes to rest;
quick, a MOVING or STOPPING axis comes to rest at once; FLOAT becomes IDLE with CP at FP; to a follower
it acts on its leader. R79 is followed for a LAND move in CREEP too (the model's choice, assumption 44). -/
def Obligations.AxisStopActsByState : Prop :=
  ∀ (p : Port) (bytes : List Byte) (f : Frame) (s t u : State) (b : Byte) (a : AxisId) (x : Axis),
    Arrives p bytes f s t → f.kind = .order → f.dest = 0 → f.code = 0x22 → f.args = [b] → b ≤ 1 →
    PassesJudgement f p t → (getAxis t (axisOf f)).state ≠ .disabled →
    ((getAxis t (axisOf f)).coupling = none → a = axisOf f) →
    (∀ k, (getAxis t (axisOf f)).coupling = some k → a = k.leader) →
    x = getAxis t a → u = setAxis a { x with latch := false } t →
    ((x.state = .idle ∨ x.state = .fault) →
      exec (.axisStop p bytes) s = .next (settle (passNote t f p u))) ∧
    (x.state = .float → exec (.axisStop p bytes) s = .next (settle (passNote t f p
      (publishAxis a [0, 1] (setAxis a
        { x with latch := false, state := .idle, cp := x.fp, fe := 0 } t))))) ∧
    (∀ c, x.state = .moving → x.current = some c → b = 0 → c.vs < c.vacc / 1000 →
      exec (.axisStop p bytes) s = .next (settle (passNote t f p (followPhase a .stopping .none
        (publishAxis a [0, 1, 6, 7] (setAxis a { x with
          latch := false, state := .stopping, phase := .none
          stop := some { outcome := .stopped } } u)))))) ∧
    (∀ c, x.state = .moving → x.current = some c → (b = 1 ∨ c.vacc / 1000 ≤ c.vs) →
      exec (.axisStop p bytes) s =
        .next (settle (passNote t f p (finishMove a .stopped none .idle u)))) ∧
    (x.state = .stopping → b = 0 → exec (.axisStop p bytes) s = .next (settle (passNote t f p u))) ∧
    (∀ n, x.state = .stopping → x.stop = some n → b = 1 → exec (.axisStop p bytes) s =
      .next (settle (passNote t f p (finishMove a n.outcome n.namer .idle u))))

/-- R75: the velocity step by phase; and from a vacc between 1 and VC counts per second, with Vk clamped to 1
up to VC, it leaves vacc between 1 and VC counts per second. R78: the braking distance is the exact
quotient rounded up with the creep length, the offset and one update's margin, a negative speed term
taken as 0; while more remains the phase stays; otherwise it becomes DECEL above Vk and CREEP at or
below it. -/
def Obligations.ProfileFollowsItsPhases : Prop :=
  (∀ c : Current,
     (c.vc * 1000 ≤ c.vacc + c.move.acc → velocityStep c .accel = (c.vc * 1000, .cruise)) ∧
     (c.vacc + c.move.acc < c.vc * 1000 → velocityStep c .accel = (c.vacc + c.move.acc, .accel)) ∧
     (c.vacc ≤ c.vk * 1000 + c.dec → velocityStep c .decel = (c.vk * 1000, .creep)) ∧
     (c.vk * 1000 + c.dec < c.vacc → velocityStep c .decel = (c.vacc - c.dec, .decel)) ∧
     velocityStep c .cruise = (c.vacc, .cruise) ∧ velocityStep c .creep = (c.vacc, .creep) ∧
     (∀ p, 1000 ≤ c.vacc → c.vacc ≤ c.vc * 1000 → 1 ≤ c.vk → c.vk ≤ c.vc →
       1000 ≤ (velocityStep c p).1 ∧ (velocityStep c p).1 ≤ c.vc * 1000)) ∧
  (∀ (c : Current) (p : Phase) (v : Nat) (bd : Int), v = c.vacc / 1000 →
     bd = ⌈(max (((v : ℚ) ^ 2) - (c.vk : ℚ) ^ 2) 0) / (2 * (c.dec : ℚ))⌉ + (c.move.lk : Int) +
       c.move.offset + ⌈(v : ℚ) / 1000⌉ →
     (bd < (c.dist : Int) - ((min (c.pacc / 1000) c.dist : Nat) : Int) → phaseDecision c p = p) ∧
     ((c.dist : Int) - ((min (c.pacc / 1000) c.dist : Nat) : Int) ≤ bd → c.vk < v →
       phaseDecision c p = .decel) ∧
     ((c.dist : Int) - ((min (c.pacc / 1000) c.dist : Nat) : Int) ≤ bd → v ≤ c.vk →
       phaseDecision c p = .creep))

/-- R76, R77: the position step of an axis without followers in a run emits the increase of
floor(pacc / 1000), at most four pulses up to 4000 counts per second, and exactly the remaining count in
the update in which the move arrives; CP changes by one for each pulse, in the direction of the move. -/
def Obligations.PositionStepEmitsWholeCounts : Prop :=
  ∀ (a : AxisId) (c : Current) (v : Nat) (s : State) (n : Nat), runningFollowers s a = [] →
    n = (if c.dist ≤ (c.pacc + v) / 1000 then c.dist - c.pacc / 1000
      else (c.pacc + v) / 1000 - c.pacc / 1000) →
    (positionStep a c v s).2 = none ∧
    (getAxis (positionStep a c v s).1 a).cp =
      (if c.up then (getAxis s a).cp + n else (getAxis s a).cp - n) ∧
    (getAxis (positionStep a c v s).1 a).pulses = n ∧
    (getAxis (positionStep a c v s).1 a).current = some { c with pacc := c.pacc + v } ∧
    (v ≤ 4000 → n ≤ 4) ∧
    (∀ b, b ≠ a → getAxis (positionStep a c v s).1 b = getAxis s b)

/-! ## Chapter 5: supervision and coupling -/

/-- R74, R88: the update of an axis: a DISABLED axis takes the inputs stage alone; any other takes
inputs, motion and error, then the drive, trip, end-limit, contact and comparator checks in that order;
the flags point is written at the end, as an event of its own (the model's choice, assumption 31). R96: the
drive check acts on the drive-fault input or an illegal
transition: FAULT with cause DRIVE, and in FAULT by a trip the cause changes with a new report and a
telling. R95: the trip check acts in IDLE, MOVING and STOPPING on an FE beyond the trip limit. R93, R105: the
end-limit check quick-stops a MOVING or STOPPING axis with LIMIT on the limit ahead; a follower announces
it. R99, R100: the contact check of a LAND move: in CREEP the latch record and LANDED into FLOAT, in another
phase EARLY_CONTACT; STOPPING, the latch record and FLOAT with the outcome named. R90, R91: a comparator is
true when its comparison holds and, with UP or DOWN, the move goes that way; its result is kept; it fires
when it becomes true. R65, R101: the error stage sets FE to CP less FP, at most 32767 either way, and to 0 in
FLOAT; a move that comes to rest in FLOAT leaves FE 0. -/
def Obligations.AxisUpdateRunsItsStages : Prop :=
  ∀ (a : AxisId) (i : AxisInputs) (s t u : State) (y : Axis) (illegal : Bool),
    (getAxis s a).takeInputs i = (y, illegal) → t = setAxis a y s →
    u = errorStage a (motionStage a t) →
    (y.state = .disabled → exec (.axisUpdate a i) s =
      .next (settle (publishAxis a [4] (setAxis a { y with pulses := 0 } t)))) ∧
    (y.state ≠ .disabled →
      exec (.axisUpdate a i) s = .next (settle (publishAxis a [4]
        (compare a (getAxis u a) 3 (compare a (getAxis u a) 2 (compare a (getAxis u a) 1
          (compare a (getAxis u a) 0 (contactCheck a (limitCheck a (tripCheck a
            (driveCheck a illegal u))))))))))) ∧
    (y.state = .idle → u = setAxis a { y with pulses := 0, fe := followingError y.cp y.fp } s) ∧
    (y.state = .float → u = setAxis a { y with pulses := 0, cp := y.fp, fe := 0 } s) ∧
    (∀ (v : State) (x : Axis) (ill : Bool), x = getAxis v a →
      (x.inputs.driveFault = false → ill = false → driveCheck a ill v = v) ∧
      ((x.inputs.driveFault = true ∨ ill = true) →
        (x.state ≠ .disabled → x.state ≠ .fault → driveCheck a ill v = enterFault a .drive v) ∧
        (x.state = .fault → x.cause = some .trip → driveCheck a ill v =
          tell [.axisTrip, .axisDrive] (.axis a)
            (offerReport ⟨true, .axisFault a .drive x.cp x.fp x.fe none⟩
              (setAxis a { x with cause := some .drive } v))) ∧
        (x.state = .fault → x.cause ≠ some .trip → driveCheck a ill v = v)) ∧
      (errorStage a v = setAxis a { x with fe := if x.state = .float then 0
        else if 32767 < x.cp - x.fp then 32767
        else if x.cp - x.fp < -32767 then -32767 else x.cp - x.fp } v) ∧
      (∀ o, (x.rested o .float).fe = 0 ∧ (x.rested o .idle).fe = x.fe) ∧
      (∀ cfg, x.cfg = some cfg →
        ((x.state = .idle ∨ x.state = .moving ∨ x.state = .stopping) → cfg.trip < x.fe.natAbs →
          tripCheck a v = enterFault a .trip v) ∧
        (x.fe.natAbs ≤ cfg.trip → tripCheck a v = v) ∧
        ((x.state = .float ∨ x.state = .fault) → tripCheck a v = v)) ∧
      (∀ up, x.direction = some up → (x.state = .moving ∨ x.state = .stopping) →
        (if up then x.inputs.upper else x.inputs.lower) = true →
        (x.coupling = none → limitCheck a v = quickStop a .limit none v) ∧
        (x.coupling ≠ none → limitCheck a v = tellLeader a .endLimit v)) ∧
      (∀ up, x.direction = some up → (if up then x.inputs.upper else x.inputs.lower) = false →
        limitCheck a v = v) ∧
      (x.state ≠ .moving → x.state ≠ .stopping → limitCheck a v = v) ∧
      (∀ c, x.current = some c → c.move.land = true → x.inputs.contact = true →
        (x.state = .moving → x.phase = .creep → contactCheck a v = finishMove a .landed none .float
          (setAxis a { x with
            latchCP := x.cp, latchFP := x.fp, latchCount := (x.latchCount + 1) % 256 } v)) ∧
        (x.state = .moving → x.phase ≠ .creep →
          contactCheck a v = quickStop a .earlyContact none v) ∧
        (∀ n, x.state = .stopping → x.stop = some n → contactCheck a v =
          finishMove a n.outcome n.namer .float (setAxis a { x with
            latchCP := x.cp, latchFP := x.fp, latchCount := (x.latchCount + 1) % 256 } v))) ∧
      ((x.inputs.contact = false ∨ ∀ c, x.current = some c → c.move.land = false) →
        contactCheck a v = v) ∧
      (∀ (cfg : AxisCfg) (k : Fin 4) (e : Axis) (src : Int) (now : Bool) (w : State),
        x.cfg = some cfg →
        src = (match cfg.comps[k].source with
          | .cp => e.cp
          | .fp => e.fp
          | .absFe => (e.fe.natAbs : Int)
          | .travel => ((e.travel.toNat % 16777216 : Nat) : Int)) →
        (now = true ↔ cfg.comps[k].cond.holdsInt src cfg.comps[k].value = true ∧
          (cfg.comps[k].qualifier = .up → x.direction = some true) ∧
          (cfg.comps[k].qualifier = .down → x.direction = some false)) →
        w = setAxis a { x with prev := x.prev.set k.val now k.isLt } v →
        (now = true → x.prev[k] = false → compare a e k v = fire a k cfg.comps[k] e w) ∧
        ((now = false ∨ x.prev[k] = true) → compare a e k v = w)))

/-- R65, R74: no command but an update of the axis itself and POWER_ON_RESET changes the feedback
position, the encoder levels or the inputs of an axis; and but for CLEAR_TRAVEL none of those others
changes its travel counter. -/
def Obligations.FeedbackCountsOnlyInTheOwnUpdate : Prop :=
  ∀ (c : Instr) (s t : State) (a : AxisId), countsAxis a c = false → exec c s = .next t →
    (getAxis t a).fp = (getAxis s a).fp ∧ (getAxis t a).encA = (getAxis s a).encA ∧
    (getAxis t a).encB = (getAxis s a).encB ∧ (getAxis t a).inputs = (getAxis s a).inputs ∧
    (c ≠ .clearTravel → (getAxis t a).travel = (getAxis s a).travel)

/-- R97: an axis that enters FAULT has no move, no coupled run and no pending move, its latch clear and
its cause kept; CP and FP stand where they were. -/
def Obligations.FaultEntryEmptiesTheAxis : Prop :=
  ∀ (a : AxisId) (cause : FaultCause) (s : State) (x : Axis), x = getAxis (enterFault a cause s) a →
    x.state = .fault ∧ x.cause = some cause ∧ x.phase = .none ∧ x.current = none ∧ x.run = none ∧
    x.stop = none ∧ x.pending = [] ∧ x.latch = false ∧ x.cp = (getAxis s a).cp ∧
    x.fp = (getAxis s a).fp ∧ x.fe = (getAxis s a).fe

/-- R103: over n leader counts that its window allows, a follower takes floor((e + n × Nf) / Nl) counts in
its run's direction and keeps the rest as its error term, while its leader takes all n. -/
def Obligations.CouplerTakesItsShareOfCounts : Prop :=
  ∀ (n : Nat) (a b : AxisId) (up : Bool) (s : State) (r : CoupledRun) (cfg : AxisCfg) (k : Coupling),
    a ≠ b → runningFollowers s a = [b] → (getAxis s b).run = some r → (getAxis s b).cfg = some cfg →
    cfg.coupling = some k → k.nf ≤ k.nl → r.e < k.nl →
    (r.up = true → (getAxis s b).cp + ((r.e + n * k.nf) / k.nl : Nat) ≤ cfg.high) →
    (r.up = false → cfg.low ≤ (getAxis s b).cp - ((r.e + n * k.nf) / k.nl : Nat)) →
    (emitCounts n a up s).2 = none ∧
    (getAxis (emitCounts n a up s).1 b).cp = (if r.up
      then (getAxis s b).cp + ((r.e + n * k.nf) / k.nl : Nat)
      else (getAxis s b).cp - ((r.e + n * k.nf) / k.nl : Nat)) ∧
    (getAxis (emitCounts n a up s).1 b).run = some { r with e := (r.e + n * k.nf) % k.nl } ∧
    (getAxis (emitCounts n a up s).1 a).cp =
      (if up then (getAxis s a).cp + n else (getAxis s a).cp - n)

/-- R105: an axis takes the oldest announcement that waits for it: a comparator's slow or quick stop with
outcome COMPARATOR and an end limit's quick stop with LIMIT, named by the follower, or a quick stop with
FOLLOWER_FAULT; that announcement is gone, and every other stays. A follower's announcement joins behind
those on their way, an equal one too. -/
def Obligations.PartnerAnnouncementStopsTheLeader : Prop :=
  (∀ (a : AxisId) (s t : State) (older newer : List PartnerMsg) (m : PartnerMsg),
    s.partner = older ++ m :: newer → (∀ q ∈ older, q.target ≠ a) → m.target = a →
    t = { s with partner := older ++ newer } →
    (m.stop = .slowComparator → exec (.partnerAnnouncement a) s =
      .next (settle (slowStop a .comparator (some m.sender) t))) ∧
    (m.stop = .quickComparator → exec (.partnerAnnouncement a) s =
      .next (settle (quickStop a .comparator (some m.sender) t))) ∧
    (m.stop = .endLimit → exec (.partnerAnnouncement a) s =
      .next (settle (quickStop a .limit (some m.sender) t))) ∧
    (m.stop = .followerFault → exec (.partnerAnnouncement a) s =
      .next (settle (quickStop a .followerFault (some m.sender) t)))) ∧
  (∀ (b : AxisId) (k : Coupling) (st : PartnerStop) (s : State), (getAxis s b).coupling = some k →
     tellLeader b st s =
       { s with partner := s.partner ++ [{ target := k.leader, sender := b, stop := st }] })

/-- R98: an AXIS_CLEAR delivered to an axis in FAULT whose drive-fault input is not asserted makes it
IDLE with CP at FP, FE 0 and no cause, writes its points and tells mode control. -/
def Obligations.AxisClearLeavesFault : Prop :=
  ∀ (p : Port) (bytes : List Byte) (f : Frame) (s t : State) (x : Axis), Arrives p bytes f s t →
    f.kind = .order → f.dest = 0 → f.code = 0x23 → f.args = [] → PassesJudgement f p t →
    x = getAxis t (axisOf f) → x.state = .fault → x.inputs.driveFault = false →
    exec (.axisClear p bytes) s = .next (settle (passNote t f p (tell [.axisTrip, .axisDrive]
      (.axis (axisOf f)) (publishAxis (axisOf f) [0, 1] (setAxis (axisOf f)
        { x with cp := x.fp, fe := 0, cause := none, state := .idle } t)))))

/-! ## Chapter 6: doors -/

/-- R109: each proof reads unusable, present or absent by its quality and bit 0; closed and open by proof;
both present are a disagreement. R110 Table 6-3: the first line that applies gives the state; a door
closed by proof has no jam mark and no CLOSE in flight, a door open by proof no OPEN in flight, and
without a CLOSE in flight the close-limit timer stands at 0. -/
def Obligations.DoorStateFollowsItsProofs : Prop :=
  ∀ (s : State) (x y : Door) (closed opened : Option Bool),
    closed = (if (getPoint s x.cfg.closedPoint).quality = .fresh ∨
        (getPoint s x.cfg.closedPoint).quality = .forced
      then some ((getPoint s x.cfg.closedPoint).value.getLsbD 0) else none) →
    opened = (if (getPoint s x.cfg.openPoint).quality = .fresh ∨
        (getPoint s x.cfg.openPoint).quality = .forced
      then some ((getPoint s x.cfg.openPoint).value.getLsbD 0) else none) →
    y = deriveDoor s x →
    (proof s x.cfg.closedPoint = closed ∧ proof s x.cfg.openPoint = opened) ∧
    (closedByProof s x.cfg = true ↔ closed = some true ∧ opened = some false) ∧
    (openByProof s x.cfg = true ↔ closed = some false ∧ opened = some true) ∧
    (y.remaining = if y.inFlight = .close then x.remaining else 0) ∧
    (closed = some true → opened = some false → y.state = .closed ∧ y.jam = false ∧
      y.inFlight ≠ .close ∧ (x.inFlight ≠ .close → y.inFlight = x.inFlight)) ∧
    (¬(closed = some true ∧ opened = some false) → y.jam = x.jam ∧
      (x.jam = true → y.state = .jammed)) ∧
    (x.jam = false → (closed = none ∨ opened = none) →
      y.state = .unknown ∧ y.inFlight = x.inFlight) ∧
    (x.jam = false → closed = some true → opened = some true →
      y.state = .unknown ∧ y.inFlight = x.inFlight) ∧
    (x.jam = false → closed = some false → opened = some true → y.state = .isOpen ∧
      y.inFlight = (if x.inFlight = .opening then .none else x.inFlight)) ∧
    (x.jam = false → closed = some false → opened = some false → y.inFlight = x.inFlight ∧
      y.state = match x.inFlight with
        | .close => .closing
        | .opening => .opening
        | .none => .moving) ∧
    (y.disagree = true ↔ closed = some true ∧ opened = some true) ∧ y.cfg = x.cfg

/-- R112: a DOOR_CLOSE or DOOR_OPEN sent on the D-port is seen, in ascending door number (the model's choice,
assumption 33), for every door of its device whose station it names or that it reaches with destination
63: the jam mark is cleared and, unless the door already stands there by proof, the order is in flight, a
CLOSE with its close limit; then the door derives its state again (read from field points, the proofs are
as they stood). Every other door is left as it is, and no other frame is seen. R113: at the close limit the
CLOSE in flight ends; a door that held CLOSING or OPEN takes the jam mark, any other does not; and the
door derives its state again. R111, R119, R120: a derivation that changes the state writes the door state
point and makes one report: DOOR_BREACH, ALARM, for a CLOSED door of a SECURED zone that becomes OPEN, MOVING,
OPENING, or UNKNOWN by disagreement; else DOOR, ALARM when it becomes JAMMED; R114, R115, R178: where it
enters or leaves JAMMED or the disagreement changes, mode control is then told once, of DOOR_JAMMED before
DOOR_SENSOR. -/
def Obligations.DoorOrdersAreSeenAndLimited : Prop :=
  (∀ (f : Frame) (s t : State) (sees : Nat × Door → Bool) (after : Door → Door), t = orderSent f s →
     (∀ e, sees e = true ↔ f.device = e.2.cfg.device ∧
       (f.dest.toNat = e.2.cfg.station ∨ f.dest = 63)) →
     ((f.kind ≠ .order ∨ (f.code ≠ 0x10 ∧ f.code ≠ 0x11)) → t = s) ∧
     (f.kind = .order → (f.code = 0x10 ∨ f.code = 0x11) →
       t = (s.doors.filter sees).foldl
         (fun u e => doorSees (decide (f.code = 0x10)) e.1 u) s) ∧
     (f.kind = .order → (f.code = 0x10 ∨ f.code = 0x11) → Canonical s →
       (∀ x, after x =
         if f.code = 0x10 ∧ closedByProof s x.cfg = false then
           { x with jam := false, inFlight := .close, remaining := x.cfg.limit }
         else if f.code = 0x11 ∧ openByProof s x.cfg = false then
           { x with jam := false, inFlight := .opening, remaining := 0 }
         else { x with jam := false, inFlight := .none, remaining := 0 }) →
       ∀ d x, Tab.get? s.doors d = some x →
         (sees (d, x) = false → Tab.get? t.doors d = some x) ∧
         (sees (d, x) = true → x.cfg.closedPoint ≤ 511 → x.cfg.openPoint ≤ 511 →
           Tab.get? t.doors d = some (deriveDoor s (after x))))) ∧
  (∀ (d : Nat) (x : Door) (s : State), Tab.get? s.doors d = some x →
     (closedByProof s x.cfg = false → doorSees true d s = settleDoor d x
       { x with jam := false, inFlight := .close, remaining := x.cfg.limit } .orderSeen s) ∧
     (closedByProof s x.cfg = true → doorSees true d s = settleDoor d x
       { x with jam := false, inFlight := .none, remaining := 0 } .orderSeen s) ∧
     (openByProof s x.cfg = false → doorSees false d s = settleDoor d x
       { x with jam := false, inFlight := .opening, remaining := 0 } .orderSeen s) ∧
     (openByProof s x.cfg = true → doorSees false d s = settleDoor d x
       { x with jam := false, inFlight := .none, remaining := 0 } .orderSeen s)) ∧
  (∀ (d : Nat) (x : Door) (s : State), Tab.get? s.doors d = some x → x.inFlight = .close →
     x.remaining = 0 →
     ((x.state = .closing ∨ x.state = .isOpen) → exec (.closeLimitExpiry d) s =
       .next (settle (settleDoor d x { x with inFlight := .none, jam := true } .closeLimit s))) ∧
     (x.state ≠ .closing → x.state ≠ .isOpen → exec (.closeLimitExpiry d) s =
       .next (settle (settleDoor d x { x with inFlight := .none, jam := false } .closeLimit s)))) ∧
  (∀ (d : Nat) (x y n : Door) (cause : DoorCause) (s v : State) (zst : Option ZoneState)
     (breach : Bool) (cs : List FaultClass), n = deriveDoor s y →
     zst = (Tab.get? s.zones n.cfg.zone).map (fun w => w.state) →
     (breach = true ↔ zst = some .secured ∧ x.state = .closed ∧ (n.state = .isOpen ∨
       n.state = .moving ∨ n.state = .opening ∨ (n.state = .unknown ∧ n.disagree = true))) →
     v = (if n.state = x.state then setDoor d n s
       else offerReport ⟨breach || decide (n.state = .jammed),
           .door breach d n.cfg zst x.state n.state cause⟩
         (writePoints [(544 + d, n.state.code)] (setDoor d n s))) →
     cs = (if x.state = .jammed ↔ n.state = .jammed then [] else [.doorJammed]) ++
       (if x.disagree = n.disagree then [] else [.doorSensor]) →
     (cs = [] → settleDoor d x y cause s = v) ∧
     (cs ≠ [] → settleDoor d x y cause s = tell cs (.door d) v))

/-! ## Chapter 7: zones -/

/-- R127, R131 Table 7-5: a ZONE_ALERT taken in NORMAL enters ALERT with the alert time, its alert call and
its changes; with alert time 0 it enters CLOSING; in any other state it is taken and changes nothing. -/
def Obligations.ZoneAlertOrderEntersAlert : Prop :=
  ∀ (p : Port) (bytes : List Byte) (f : Frame) (s t u : State) (w : Zone), Arrives p bytes f s t →
    f.kind = .order → f.dest = 0 → f.code = 0x30 → f.args = [] → PassesJudgement f p t →
    Tab.get? t.zones f.device = some w →
    (w.state = .normal → w.cfg.alertTime ≠ 0 →
      u = startAlertCall f.device (setZone f.device
        { w with state := .alert, timer := w.cfg.alertTime } t) →
      exec (.zoneAlert p bytes) s = .next (settle (passNote t f p (finishChanges
        [{ zone := f.device, prev := .normal, new := .alert, gate := gateShut u f.device
           cause := .order f.tag f.src }] u)))) ∧
    (w.state = .normal → w.cfg.alertTime = 0 → exec (.zoneAlert p bytes) s =
      .next (settle (passNote t f p (enterClosing f.device (.order f.tag f.src) t)))) ∧
    (w.state ≠ .normal → exec (.zoneAlert p bytes) s = .next (settle (passNote t f p t)))

/-- R129, R130, R131, R134: a ZONE_CLOSE_NOW taken in NORMAL or ALERT enters CLOSING with the nested zones;
for a NORMAL zone without program and without nested zones it shuts the gate, announces it to the axes,
judges the zone's own doors, and writes and reports both changes. In another state it changes nothing. -/
def Obligations.ZoneCloseNowEntersClosing : Prop :=
  ∀ (p : Port) (bytes : List Byte) (f : Frame) (s t : State) (w : Zone), Arrives p bytes f s t →
    f.kind = .order → f.dest = 0 → f.code = 0x31 → f.args = [] → PassesJudgement f p t →
    Tab.get? t.zones f.device = some w →
    ((w.state = .normal ∨ w.state = .alert) → exec (.zoneCloseNow p bytes) s =
      .next (settle (passNote t f p (enterClosing f.device (.order f.tag f.src) t)))) ∧
    (w.state ≠ .normal → w.state ≠ .alert →
      exec (.zoneCloseNow p bytes) s = .next (settle (passNote t f p t))) ∧
    (∀ u v new, w.state = .normal → w.cfg.program = none → levelBelow t [f.device] [f.device] = [] →
      u = announceGate f.device (setZone f.device
        { w with state := .closing, timer := 0, wait := .none } t) →
      new = (if (ownDoors u f.device).all (fun e => doorClosed u e.1) then ZoneState.secured
        else ZoneState.incomplete) →
      v = modifyZone f.device (fun y => { y with state := new, cursor := none, wait := .none }) u →
      enterClosing f.device (.order f.tag f.src) t = finishChanges
        [{ zone := f.device, prev := .normal, new := .closing, gate := true
           cause := .order f.tag f.src },
         { zone := f.device, prev := .closing, new := new, gate := gateShut v f.device
           cause := .programEnd }] v)

/-- R128, R131, R132 Table 7-5: a ZONE_CANCEL taken in ALERT with the trigger false leaves ALERT for NORMAL,
its alert call ended; a ZONE_RELEASE taken in SECURED or INCOMPLETE with the trigger false and the
parent's gate open writes the points, ends every call of the zone, and reports. Refused STATE: ZONE_CANCEL
in any other state, and in ALERT with the trigger true; ZONE_RELEASE in any other state, and in SECURED or
INCOMPLETE with the trigger true or the parent's gate shut. A trigger evaluated afresh is kept. Several
calls of a released zone end in list order, with a recompute after each (the model's choice,
assumption 45). -/
def Obligations.ZoneCancelAndRelease : Prop :=
  ∀ (p : Port) (bytes : List Byte) (f : Frame) (s t u v : State) (w : Zone), Arrives p bytes f s t →
    f.kind = .order → f.dest = 0 → f.args = [] → PassesJudgement f p t →
    Tab.get? t.zones f.device = some w →
    u = setZone f.device { w with trigger := evalTerm t w.cfg.trigger } t →
    (f.code = 0x32 → w.state = .alert → evalTerm t w.cfg.trigger = false →
      v = modifyZone f.device (fun y => { y with state := .normal }) (leaveAlert f.device u) →
      exec (.zoneCancel p bytes) s = .next (settle (passNote t f p (finishChanges
        [{ zone := f.device, prev := .alert, new := .normal, gate := gateShut v f.device
           cause := .order f.tag f.src }] v)))) ∧
    (f.code = 0x33 → (w.state = .secured ∨ w.state = .incomplete) →
      evalTerm t w.cfg.trigger = false → (∀ q, w.cfg.parent = some q → gateShut t q = false) →
      v = modifyZone f.device (fun y => { y with state := .normal }) u →
      exec (.zoneRelease p bytes) s = .next (settle (passNote t f p (reportZone
        { zone := f.device, prev := w.state, new := .normal, gate := gateShut v f.device
          cause := .order f.tag f.src }
        (endAll (Call.byZone f.device) .withdrawn (publishZones v)))))) ∧
    (∀ r, lookupRule t p f = r → f.code = 0x32 → w.state ≠ .alert →
      exec (.zoneCancel p bytes) s = .next (settle (refuse (.target .state) f p (r.map (·.1))
        (r.map (fun e => (evalRule t e.2).1)) t))) ∧
    (∀ r, lookupRule t p f = r → f.code = 0x33 → w.state ≠ .secured → w.state ≠ .incomplete →
      exec (.zoneRelease p bytes) s = .next (settle (refuse (.target .state) f p (r.map (·.1))
        (r.map (fun e => (evalRule t e.2).1)) t))) ∧
    (∀ r, lookupRule t p f = r → f.code = 0x32 → w.state = .alert →
      evalTerm t w.cfg.trigger = true →
      exec (.zoneCancel p bytes) s = .next (settle (refuse (.target .state) f p (r.map (·.1))
        (r.map (fun e => (evalRule t e.2).1)) u))) ∧
    (∀ r, lookupRule t p f = r → f.code = 0x33 → (w.state = .secured ∨ w.state = .incomplete) →
      (evalTerm t w.cfg.trigger = true ∨ ∃ q, w.cfg.parent = some q ∧ gateShut t q = true) →
      exec (.zoneRelease p bytes) s = .next (settle (refuse (.target .state) f p (r.map (·.1))
        (r.map (fun e => (evalRule t e.2).1)) u)))

/-- R117, R118, R128: a zone whose alert timer has reached 0 in ALERT enters CLOSING with cause ALERT_TIME; a
SECURED or INCOMPLETE zone whose reclose timer has reached 0 makes a reclose round and sets its timer
again; a round offers each door a DOOR_CLOSE with tag 0 and no argument, unless the door is CLOSED or has
a CLOSE in flight, and ends at a refused offer. R24, R138: every change event has each AWAIT examine its
doors, in ascending zone number (the model's choice, assumption 4); AWAIT_DOORS_CLOSED is that examination
by one zone (the model's choice, assumption 2). R136 to R138, R140, R143: the cursor moves on within the
event when every own door of the AWAIT's rank is CLOSED or JAMMED by a FRESH point, and stands otherwise;
when its limit runs out (with the AWAIT_LIMIT report), when a PAUSE10 or PAUSE100 has
waited its ticks, and when an ORDER step that stood for room finds it, or a CLOSE step finds it for every
door of its rank from the one refused on: each not CLOSED is offered a close in ascending number; at a
refusal the step stands for room again, for that door. -/
def Obligations.ZoneTimersAndProgramWaitsEnd : Prop :=
  (∀ (z : Nat) (w : Zone) (s : State), Tab.get? s.zones z = some w →
     (w.state = .alert → w.timer = 0 →
       exec (.alertTimerExpiry z) s = .next (settle (enterClosing z .alertTime s))) ∧
     (w.reclose = some 0 → (w.state = .secured ∨ w.state = .incomplete) →
       exec (.recloseTimerExpiry z) s = .next (settle (setReclose z true (offerRound
         (s.doors.filter (fun e => decide (e.2.cfg.zone = z))) s))))) ∧
  (∀ (z k : Nat) (w : Zone) (s : State), Tab.get? s.zones z = some w → w.cursor = some k →
     (∀ r n l q prog, w.wait = .await n → w.cfg.program = some q →
       Tab.get? s.programs q = some prog → prog[k - 1]? = some (.await r l) →
       ((∀ e ∈ s.doors, e.2.cfg.zone = z → e.2.cfg.rank = r →
           (getPoint s (544 + e.1)).quality = .fresh ∧
           ((getPoint s (544 + e.1)).value = 2 ∨ (getPoint s (544 + e.1)).value = 6)) →
         exec (.awaitDoorsClosed z) s = .next (settle (resume z (k + 1) s)) ∧
         reexamine z s = resume z (k + 1) s) ∧
       (∀ e ∈ s.doors, e.2.cfg.zone = z → e.2.cfg.rank = r →
         ((getPoint s (544 + e.1)).quality ≠ .fresh ∨
           ((getPoint s (544 + e.1)).value ≠ 2 ∧ (getPoint s (544 + e.1)).value ≠ 6)) →
         exec (.awaitDoorsClosed z) s = .next (settle s) ∧ reexamine z s = s)) ∧
     (∀ r n q prog, w.wait = .await 0 → w.cfg.program = some q →
       Tab.get? s.programs q = some prog → prog[k - 1]? = some (.await r n) →
       exec (.awaitLimit z) s = .next (settle (resume z (k + 1) (offerReport ⟨true, .zoneStep z
         (some q) k (some 2) (.awaitLimit r (stillOpen s z r).length
           ((stillOpen s z r).headD 255))⟩ s)))) ∧
     (w.wait = .pause10 0 → exec (.pause10Expiry z) s = .next (settle (resume z (k + 1) s))) ∧
     (w.wait = .pause100 0 → exec (.pause100Expiry z) s = .next (settle (resume z (k + 1) s))) ∧
     (∀ f, w.wait = .order f true → s.link.safety.length < 8 →
       exec (.programStepReoffer z) s = .next (settle (resume z (k + 1)
         (kickD { s with link := { s.link with safety := s.link.safety ++ [f] } })))) ∧
     (∀ f, w.wait = .order f true → 8 ≤ s.link.safety.length →
       exec (.programStepReoffer z) s =
         .next (settle (modifyZone z (fun v => { v with wait := .order f false }) s))) ∧
     (∀ d r q prog doors, w.wait = .closeFrom d true → w.cfg.program = some q →
       Tab.get? s.programs q = some prog → prog[k - 1]? = some (.close r) →
       doors = s.doors.filter (fun e => decide (e.2.cfg.zone = z) && decide (e.2.cfg.rank = r) &&
         decide (d ≤ e.1)) →
       (∀ t, offerCloses doors s = (t, none) →
         exec (.programStepReoffer z) s = .next (settle (resume z (k + 1) t))) ∧
       (∀ t n, offerCloses doors s = (t, some n) → exec (.programStepReoffer z) s =
         .next (settle (modifyZone z (fun v => { v with wait := .closeFrom n false }) t))))) ∧
  (∀ (names : List Nat) (s : State), (∀ e ∈ s.zones, ∀ n, e.2.cfg.trigger.point = some n → n ∉ names) →
     (∀ n ∈ names, n < 544 ∨ 639 < n) → (∀ e ∈ s.doors, e.1 ≤ 95) →
     zonesOnEvent names s = s.zones.foldl (fun t e => reexamine e.1 t) s) ∧
  (∀ (d : Nat) (x : Door) (rest : List (Nat × Door)) (s : State) (f : Frame),
     f = { kind := .order, cls := 0, dest := BitVec.ofNat 6 x.cfg.station, src := 0, flags := 0
           payload := [0x10, BitVec.ofNat 8 x.cfg.device, 0, 0] } →
     ((x.state = .closed ∨ x.inFlight = .close) →
       offerRound ((d, x) :: rest) s = offerRound rest s) ∧
     (x.state ≠ .closed → x.inFlight ≠ .close → s.link.safety.length < 8 →
       offerRound ((d, x) :: rest) s = offerRound rest
         (kickD { s with link := { s.link with safety := s.link.safety ++ [f] } })) ∧
     (x.state ≠ .closed → x.inFlight ≠ .close → 8 ≤ s.link.safety.length →
       offerRound ((d, x) :: rest) s = s) ∧
     offerCloses [] s = (s, none) ∧
     (x.state = .closed → offerCloses ((d, x) :: rest) s = offerCloses rest s) ∧
     (x.state ≠ .closed → s.link.safety.length < 8 →
       offerCloses ((d, x) :: rest) s = offerCloses rest
         (kickD { s with link := { s.link with safety := s.link.safety ++ [f] } })) ∧
     (x.state ≠ .closed → 8 ≤ s.link.safety.length →
       offerCloses ((d, x) :: rest) s = (s, some d)))

/-- R134: on zones whose parents form no cycle and nest at most four deep, a gate is shut exactly when its
zone is CLOSING, SECURED or INCOMPLETE or its parent's gate is shut. -/
def Obligations.GateIsShutByStateOrParent : Prop :=
  ∀ (s : State) (z : Nat) (w : Zone), Tab.get? s.zones z = some w →
    (ancestors s.zones Config.zoneFuel z).length < 4 →
    (gateShut s z = true ↔ w.state = .closing ∨ w.state = .secured ∨ w.state = .incomplete ∨
      ∃ q, w.cfg.parent = some q ∧ gateShut s q = true)

/-! ## Chapter 8: calls -/

/-- R150, R151, R159: a CALL_START of a valid template with room in the list makes a call WAITING at the
tail with the next free number, a STARTED report and a recompute of ownership; three argument bytes
override its zone set. R153: with 16 calls in the list, a request of another priority than EMERGENCY, or
with EMERGENCY calls alone in the list, is refused QUEUE_FULL; an EMERGENCY request displaces the call of
the worst priority nearest the tail and joins. A CALL_END of a call in the list takes it out with an ENDED
report and a recompute; one that names no call is refused NO_SUCH. That a STARTED and an ENDED report carry an
empty owned set is the model's reading (assumption 17). -/
def Obligations.CallStartAndCallEnd : Prop :=
  ∀ (p : Port) (bytes : List Byte) (f : Frame) (s t : State), Arrives p bytes f s t →
    f.kind = .order → f.dest = 0 → PassesJudgement f p t →
    (∀ (tpl : Template) (base : ZoneSet) (c : Call), f.code = 0x40 →
      Tab.get? t.templates f.device = some tpl → t.calls.length < 16 →
      ((f.args = [] ∧ base = tpl.zones) ∨ ∃ b2 b1 b0 : Byte, f.args = [b2, b1, b0] ∧
        base = b2 ++ b1 ++ b0) →
      c = { number := freeNumber t.calls 17 t.lastNumber, template := f.device
            priority := tpl.priority, source := tpl.source, base := base
            requested := requestedSet t.audioZones tpl.priority base, owned := 0, state := .waiting
            chime := if tpl.preChime then .due else .finished, pos := 0
            starter := .bridge f.tag f.src
            remaining := if tpl.duration = 0 then none else some (tpl.duration * 10)
            age := 0, toneCount := 0, block := 0 } →
      exec (.callStart p bytes) s = .next (settle (passNote t f p (recompute
        (callReport c .started 0
          { t with calls := t.calls ++ [c], lastNumber := c.number }))))) ∧
    (∀ older c newer, f.code = 0x41 → f.args = [] → t.calls = older ++ c :: newer →
      (∀ d ∈ older, d.number ≠ f.device) → c.number = f.device →
      exec (.callEnd p bytes) s = .next (settle (passNote t f p (recompute
        (callReport c (.ended .ended) 0 { t with calls := older ++ newer }))))) ∧
    (∀ r, lookupRule t p f = r → f.code = 0x41 → f.args = [] → (∀ d ∈ t.calls, d.number ≠ f.device) →
      exec (.callEnd p bytes) s = .next (settle (refuse (.target .noSuch) f p (r.map (·.1))
        (r.map (fun e => (evalRule t e.2).1)) t))) ∧
    (∀ (tpl : Template) r, lookupRule t p f = r → f.code = 0x40 →
      Tab.get? t.templates f.device = some tpl → 16 ≤ t.calls.length →
      (f.args = [] ∨ f.args.length = 3) → (tpl.priority ≠ 0 ∨ ∀ c ∈ t.calls, c.priority = 0) →
      exec (.callStart p bytes) s = .next (settle (refuse (.target .queueFull) f p (r.map (·.1))
        (r.map (fun e => (evalRule t e.2).1)) t))) ∧
    (∀ (tpl : Template) older c newer u n, f.code = 0x40 →
      Tab.get? t.templates f.device = some tpl → tpl.priority = 0 → 16 ≤ t.calls.length →
      f.args = [] → t.calls = older ++ c :: newer → c.priority ≠ 0 →
      (∀ d ∈ older, d.priority ≤ c.priority) → (∀ d ∈ newer, d.priority < c.priority) →
      u = recompute (callReport c (.ended .displaced) 0 { t with calls := older ++ newer }) →
      n = newCall u f.device tpl (.bridge f.tag f.src) tpl.zones →
      exec (.callStart p bytes) s = .next (settle (passNote t f p (recompute (callReport n .started 0
        { u with calls := u.calls ++ [n], lastNumber := n.number })))))

/-- R150: the number a call takes is the first after the last number, wrapping from 255 to 1, that no call
in a list of at most 16 holds. -/
def Obligations.CallNumberIsTheNextFreeOne : Prop :=
  ∀ (cs : List Call) (last n : Nat), cs.length ≤ 16 → last ≤ 255 → n = freeNumber cs 17 last →
    1 ≤ n ∧ n ≤ 255 ∧ (∀ c ∈ cs, c.number ≠ n) ∧
    ∃ k, n = (last + k) % 255 + 1 ∧ k < 17 ∧
      ∀ j, j < k → ∃ c ∈ cs, c.number = (last + j) % 255 + 1

/-- R152: after a recompute an audio zone is owned by a call exactly when the call requests it and no other
call that requests it has a better priority, or the same and a place nearer the head. -/
def Obligations.BestCallOwnsEachAudioZone : Prop :=
  ∀ (s : State) (i : Nat) (c : Call) (n : Nat), (recompute s).calls[i]? = some c → n < 24 →
    (c.owned.getLsbD n = true ↔ c.requested.getLsbD n = true ∧
      ∀ j d, (recompute s).calls[j]? = some d → j ≠ i → d.requested.getLsbD n = true →
        c.priority < d.priority ∨ (c.priority = d.priority ∧ i < j))

/-- R152: every command leaves every call with the owned set that R152 gives it. -/
def Obligations.OwnershipKeptByEveryCommand : Prop :=
  ∀ (c : Instr) (s t : State), Owned s → exec c s = .next t → Owned t

/-- R155, R156, R158, R159: at a voice tick the frames of the calls in CHIME and of the LIVE tone calls are
produced in list order; then, in the order that is the model's choice (assumption 21), the LIVE voice
calls whose age has reached the source-lost limit end (one by one in list order: the model's choice,
assumption 45), and the calls whose 400th chime block has been produced go LIVE. CHIME_END and SOURCE_LOST are one call's share of the tick that brings them about (the
model's choice, assumption 21): the 400th block and the entry to LIVE; the last step of the age and the
end. A call whose duration has run out ends. Each end makes its report, with an empty owned set (the
model's reading, assumption 17), and a recompute. -/
def Obligations.CallTimersAct : Prop :=
  (∀ s t u : State, t = (s.calls.map (Call.onTick s)).foldl
     (fun t r => match r.2 with
       | some f => offerVoice f t
       | none => t) { s with calls := s.calls.map (fun c => (Call.onTick s c).1) } →
     u = endAll (fun c => c.isLost s.settings.sourceLost) .sourceLost t →
     exec .voiceTick s = .next (settle ((u.calls.filter (fun c =>
         decide (c.state = .chime) && decide (400 ≤ c.pos))).foldl
       (fun v c => callReport { c with state := .live, chime := .finished, age := 0, toneCount := 0 }
         .live c.owned v)
       { u with calls := u.calls.map (fun c =>
           if c.state = .chime ∧ 400 ≤ c.pos then
             { c with state := .live, chime := .finished, age := 0, toneCount := 0 } else c) }))) ∧
  (∀ (s : State) (c : Call), (∀ k, c.source = .voice k → (c.isLost s.settings.sourceLost = true ↔
       c.state = .live ∧ s.settings.sourceLost ≤ c.age)) ∧
     (∀ k, c.source = .tone k → c.isLost s.settings.sourceLost = false) ∧
     (∀ k, c.source = .voice k → c.state = .live →
       Call.onTick s c = ({ c with age := min 5000 (c.age + 4) }, none))) ∧
  (∀ (s : State) (older newer : List Call) (c d : Call), s.calls = older ++ c :: newer →
    (∀ b ∈ older ++ newer, b.number ≠ c.number) →
    (c.state = .chime → c.owned ≠ 0 → c.pos = 399 →
      d = { c with state := .live, chime := .finished, age := 0, toneCount := 0, pos := 400
                   block := c.block + 1 } →
      exec (.chimeEnd c.number) s = .next (settle (callReport d .live c.owned (offerVoice
        (voiceFrame s c 0 (toneBlock 0 12768)) { s with calls := older ++ d :: newer })))) ∧
    (∀ k, c.state = .live → c.source = .voice k →
      s.settings.sourceLost ≤ min 5000 (c.age + 4) →
      exec (.sourceLost c.number) s = .next (settle (recompute
        (callReport c (.ended .sourceLost) 0 { s with calls := older ++ newer })))) ∧
    (c.remaining = some 0 → exec (.callDurationExpiry c.number) s = .next (settle (recompute
      (callReport c (.ended .duration) 0 { s with calls := older ++ newer })))))

/-- R157: a sample is scaled by the two gains and truncated toward zero; gains of 64 and 64 leave it as it
is; gains up to 64 keep it within its own magnitude; an EMERGENCY or CREW_ALERT call takes 64 and 64, any
other its template's gain and the smallest zone gain of the zones it owns. -/
def Obligations.OutputSampleIsScaledTowardZero : Prop :=
  (∀ (x : Int) (g1 g2 : Nat),
    (0 ≤ x → outSample x g1 g2 = x * g1 * g2 / 4096) ∧
    (x ≤ 0 → outSample x g1 g2 = -((-x) * g1 * g2 / 4096)) ∧
    outSample x 64 64 = x ∧
    (g1 ≤ 64 → g2 ≤ 64 → (outSample x g1 g2).natAbs ≤ x.natAbs)) ∧
  (∀ (s : State) (c : Call), (c.priority ≤ 1 → callGains s c = (64, 64)) ∧
    (∀ tpl, 2 ≤ c.priority → Tab.get? s.templates c.template = some tpl →
      (callGains s c).1 = tpl.gain ∧
      (∀ n, n < 24 → c.owned.getLsbD n = true → (callGains s c).2 ≤ zoneGain s n) ∧
      ((callGains s c).2 = 64 ∨ ∃ n, n < 24 ∧ c.owned.getLsbD n = true ∧
        (callGains s c).2 = zoneGain s n)))

/-! ## Chapter 9: management -/

/-- R163, R164, R169, R170: a MANAGE frame to station 0 from the manager through the B-port that reads as
a request is served at once, when it is a read without FENCE, and is otherwise queued, or answered BUSY
when 16 requests wait; one that is not from the manager through the B-port is dropped with a LINK
report; one to another address is forwarded when across and otherwise discarded. A payload from the
manager that is too short is answered RANGE with code 0 and tag 0, one that names no request INVALID, one
of the wrong length RANGE. That the three reads arrive the same way as MANAGE is the model's reading of
the table (assumption 25). -/
def Obligations.ManageFrameIsServedOrQueued : Prop :=
  ∀ (p : Port) (bytes : List Byte) (f : Frame) (s t : State), Arrives p bytes f s t →
    f.kind = .manage →
    (∀ r, f.dest = 0 → p = .b → f.src.toNat = t.settings.manager →
      decodeManage f.payload = .request r →
      (r.body.direct = true → r.fence = false →
        exec (.manage p bytes) s = .next (settle
          (replyTo r (serve r.body t).1 (serve r.body t).2 t)) ∧
        exec (.readEntry (.arrives p bytes)) s = exec (.manage p bytes) s ∧
        exec (.readPoints (.arrives p bytes)) s = exec (.manage p bytes) s ∧
        exec (.readStatus (.arrives p bytes)) s = exec (.manage p bytes) s) ∧
      ((r.body.direct = false ∨ r.fence = true) → t.manage.length < 16 →
        exec (.manage p bytes) s = .next (settle { t with manage := t.manage ++ [r] })) ∧
      ((r.body.direct = false ∨ r.fence = true) → 16 ≤ t.manage.length →
        exec (.manage p bytes) s = .next (settle (replyTo r .busy [] t)))) ∧
    (f.dest = 0 → (p ≠ .b ∨ f.src.toNat ≠ t.settings.manager) →
      exec (.manage p bytes) s =
        .next (settle (offerReport ⟨false, .link (.manageSource f.src p)⟩ t))) ∧
    (f.dest = 0 → p = .b → f.src.toNat = t.settings.manager →
      (decodeManage f.payload = .short →
        exec (.manage p bytes) s = .next (settle (reply 0 0 .range [] t))) ∧
      (∀ code tag, decodeManage f.payload = .unknown code tag →
        exec (.manage p bytes) s = .next (settle (reply code tag .invalid [] t))) ∧
      (∀ code tag, decodeManage f.payload = .badLength code tag →
        exec (.manage p bytes) s = .next (settle (reply code tag .range [] t)))) ∧
    (f.dest ≠ 0 → destination t p f = .across →
      exec (.manage p bytes) s = .next (settle (forwardFrame p f t))) ∧
    (f.dest ≠ 0 → destination t p f = .near → exec (.manage p bytes) s = .next (settle t))

/-- R169, Table 9-8: a read is answered from the state as it stands, or RANGE outside. READ_ENTRY: a part of
at most 64 bytes of an entry's record. READ_POINTS: up to 16 points, their qualities packed four to a
byte, the first in bits 7-6, then value and age of each. READ_STATUS: section 0 with mode, active
classes, bridge state, the seven queue depths, the axis and zone states, the call count and the error
counts; sections 1 to 4 with the fields of one axis. -/
def Obligations.ReadsAnswerFromTheState : Prop :=
  ∀ s : State,
    (∀ t i part, indexOk t i = true → 64 * part < recordLength t →
      serve (.readEntry t i part) s = (.ok, [BitVec.ofNat 8 t] ++ beBytes 2 i ++
        [BitVec.ofNat 8 part, if recordLength t ≤ 64 * (part + 1) then 1 else 0] ++
        ((readBack s t i).drop (64 * part)).take 64)) ∧
    (∀ t i part, (indexOk t i = false ∨ recordLength t ≤ 64 * part) →
      serve (.readEntry t i part) s = (.range, [])) ∧
    (∀ first count, 1 ≤ count → count ≤ 16 → first + count ≤ 699 → ∃ qs : List Byte,
      serve (.readPoints first count) s = (.ok, beBytes 2 first ++ [BitVec.ofNat 8 count] ++ qs ++
        (List.range count).flatMap (fun k => beBytes 2 (getPoint s (first + k)).value.toNat ++
          beBytes 2 (getPoint s (first + k)).age)) ∧
      qs.length = (count + 3) / 4 ∧
      ∀ k, k < 4 * qs.length → (qs.getD (k / 4) 0).toNat / 4 ^ (3 - k % 4) % 4 =
        if k < count then (match (getPoint s (first + k)).quality with
          | .never => 0
          | .fresh => 1
          | .stale => 2
          | .forced => 3)
        else 0) ∧
    (∀ first count, (count = 0 ∨ 16 < count ∨ 699 < first + count) →
      serve (.readPoints first count) s = (.range, [])) ∧
    serve (.readStatus 0) s = (.ok, [0,
        (match s.mode with
          | .config => 0
          | .run => 1
          | .safe => 2), activeSet s,
        (match s.link.bridge with
          | .awaiting => 0
          | .heard => 1
          | .silent => 2)] ++
      [s.hold.length, s.manage.length, s.reports.length, s.link.safety.length, s.link.voice.length,
        s.link.forward.length, s.link.dToB.length].map (BitVec.ofNat 8) ++
      [(getAxis s 0).state.code, (getAxis s 1).state.code, (getAxis s 2).state.code,
        (getAxis s 3).state.code].map (BitVec.ofNat 8) ++
      (List.range 16).map (fun z => match Tab.get? s.zones z with
        | some w => BitVec.ofNat 8 w.state.code
        | none => 0xFF) ++
      [BitVec.ofNat 8 s.calls.length] ++ beBytes 2 s.link.errB ++ beBytes 2 s.link.errD) ∧
    (∀ c : FaultClass, (activeSet s).getLsbD c.bit.val = (getClass s c).active) ∧
    (∀ (a : AxisId) (x : Axis), x = getAxis s a → serve (.readStatus (a.val + 1)) s = (.ok,
      [BitVec.ofNat 8 (a.val + 1), BitVec.ofNat 8 x.state.code, BitVec.ofNat 8 x.phase.code,
        (match x.cause with
          | none => 0
          | some .trip => 1
          | some .drive => 2), if x.latch then 1 else 0,
        BitVec.ofNat 8 ((if x.current.isSome ∨ x.run.isSome then 1 else 0) + x.pending.length)] ++
      beSigned 3 x.cp ++ beSigned 3 x.fp ++ beSigned 2 x.fe ++ beBytes 4 x.travel.toNat ++
      beSigned 3 x.latchCP ++ beSigned 3 x.latchFP ++ [BitVec.ofNat 8 x.latchCount])) ∧
    (∀ n, 4 < n → serve (.readStatus n) s = (.range, []))

/-- R165 to R169: the request at the head completes against the state as it stands, with one REPLY, and
leaves the queue: a whole record is checked by index, mode and length and written by its table; parts
above 0 are appended, or discard the staging record with RANGE or INVALID; an entry is cleared, a fenced
read is answered, CLEAR_TRAVEL returns one travel counter to 0 (an axis above 3 is RANGE). An accepted
write leaves the entry reading back as the record (byte for byte, or in a rule, axis or program record as
the same record, whose bytes without meaning may differ: the model's choice, assumption 8); a clear, or a
write with valid = no, leaves an entry that reads back as 0, a CONTINUE response, or the power-on settings.
R19: a station entry written or cleared leaves its slot UNSEEN with count 0 and no sequence, its silence
flag kept. R26: the old target of a Point Map entry becomes NEVER unless FORCED, with one change event if
that changes it; every other point stays. R46: the orders held under a written or cleared rule leave the
queue, refused RULE_CHANGED, oldest first, each report with the entry's rule and latest evaluation (the
model's reading, assumption 27). A completion's change events are taken before its REPLY is queued (the
model's choice, assumption 47). -/
def Obligations.RequestAtTheHeadCompletes : Prop :=
  (∀ (r : Request) (rest : List Request) (s : State), s.manage = r :: rest →
    (∀ t i bs u x, r.body = .writeEntry t i 0 bs → r.more = false → indexOk t i = true →
      writable t s.mode = true → bs.length = recordLength t → writeTable t i bs s = (u, x) →
      exec .writeEntry s = .next (completed r x [] u)) ∧
    (∀ t i bs, r.body = .writeEntry t i 0 bs → r.more = false →
      (indexOk t i = false → exec .writeEntry s = .next (completed r .range [] s)) ∧
      (indexOk t i = true → writable t s.mode = false →
        exec .writeEntry s = .next (completed r .mode [] s)) ∧
      (indexOk t i = true → writable t s.mode = true → bs.length ≠ recordLength t →
        exec .writeEntry s = .next (completed r .range [] s))) ∧
    (∀ t i bs, r.body = .writeEntry t i 0 bs → r.more = true → indexOk t i = true →
      exec .writeEntry s = .next (completed r .ok []
        { s with staging := some { table := t, index := i, nextPart := 1, bytes := bs } })) ∧
    (∀ t i part bs g, r.body = .writeEntry t i part bs → part ≠ 0 → s.staging = some g →
      g.table = t → g.index = i → g.nextPart = part →
      (r.more = true → (g.bytes ++ bs).length ≤ recordLength t →
        exec .writeEntry s = .next (completed r .ok []
          { s with staging := some { g with nextPart := part + 1, bytes := g.bytes ++ bs } })) ∧
      (r.more = true → recordLength t < (g.bytes ++ bs).length →
        exec .writeEntry s = .next (completed r .range [] { s with staging := none })) ∧
      (∀ u x, r.more = false → indexOk t i = true → writable t s.mode = true →
        (g.bytes ++ bs).length = recordLength t →
        writeTable t i (g.bytes ++ bs) { s with staging := none } = (u, x) →
        exec .writeEntry s = .next (completed r x [] u)) ∧
      (r.more = false → indexOk t i = true → writable t s.mode = true →
        (g.bytes ++ bs).length ≠ recordLength t →
        exec .writeEntry s = .next (completed r .range [] { s with staging := none }))) ∧
    (∀ t i part bs, r.body = .writeEntry t i part bs → part ≠ 0 →
      (∀ g, s.staging = some g → g.table ≠ t ∨ g.index ≠ i ∨ g.nextPart ≠ part) →
      exec .writeEntry s = .next (completed r .invalid [] { s with staging := none })) ∧
    (∀ t i u x, r.body = .clearEntry t i → indexOk t i = true → writable t s.mode = true →
      clearTable t i s = (u, x) → exec .clearEntry s = .next (completed r x [] u)) ∧
    (∀ t i part, r.body = .readEntry t i part → exec (.readEntry .completes) s =
      .next (completed r (serve r.body s).1 (serve r.body s).2 s)) ∧
    (∀ first count, r.body = .readPoints first count → exec (.readPoints .completes) s =
      .next (completed r (serve r.body s).1 (serve r.body s).2 s)) ∧
    (∀ n, r.body = .readStatus n → exec (.readStatus .completes) s =
      .next (completed r (serve r.body s).1 (serve r.body s).2 s)) ∧
    (∀ a : AxisId, r.body = .clearTravel a.val → exec .clearTravel s = .next (completed r .ok []
      (setAxis a { getAxis s a with travel := 0 } s))) ∧
    (∀ n, r.body = .clearTravel n → 4 ≤ n →
      exec .clearTravel s = .next (completed r .range [] s))) ∧
  (∀ (t i : Nat) (bs : List Byte) (s u : State), indexOk t i = true → bs.length = recordLength t →
    writeTable t i bs s = (u, .ok) →
    ((t = 9 ∨ t = 10) → readBack u t i = bs) ∧
    (t ≤ 8 → bs.head? = some 1 →
      (t ≠ 2 → t ≠ 3 → t ≠ 6 → readBack u t i = bs) ∧
      (t = 2 → readRule bs ≠ none ∧ readRule (readBack u 2 i) = readRule bs) ∧
      (t = 3 → readAxis i bs ≠ none ∧ readAxis i (readBack u 3 i) = readAxis i bs) ∧
      (t = 6 → readProgram bs ≠ none ∧ readProgram (readBack u 6 i) = readProgram bs)) ∧
    (t ≤ 8 → bs.head? = some 0 → readBack u t i = List.replicate (recordLength t) 0)) ∧
  (∀ (t i : Nat) (s u : State), indexOk t i = true → clearTable t i s = (u, .ok) →
    readBack u t i = if t = 9 then [0] else if t = 10 then [1, 1, 10, 16, 7, 208]
      else List.replicate (recordLength t) 0) ∧
  (∀ (n : Nat) (e : Option StationEntry) (s u : State), u = putStationEntry n e s →
    getStation u n = { entry := e, state := .unseen, count := 0, lastSeq := none
                       silenceFlag := (getStation s n).silenceFlag } ∧
    ∀ k, k ≠ n → getStation u k = getStation s k) ∧
  (∀ (n : Nat) (e : Option MapEntry) (s u : State), u = putMapEntry n e s →
    (∀ k, (∀ m, Tab.get? s.pointMap n = some m → m.point = k →
        (getPoint s k).quality = .forced) → getPoint u k = getPoint s k) ∧
    (∀ m, Tab.get? s.pointMap n = some m → (getPoint s m.point).quality ≠ .forced →
      getPoint u m.point = { value := 0, quality := .never, age := 0 } ∧
      u.events = if (getPoint s m.point).quality = .never ∧ (getPoint s m.point).value = 0
        then s.events else s.events ++ [[m.point]])) ∧
  (∀ (n : Nat) (e : Option Rule) (s : State), putRule n e s =
    (s.hold.filter (fun h => decide (h.rule = n))).foldl
      (fun t h => offerReport ⟨false, .verdict .refused (some .ruleChanged) h.frame h.origin
        (some h.rule) (some h.eval)⟩ t)
      { s with
        hold := s.hold.filter (fun h => decide (h.rule ≠ n))
        rules := match e with
          | some x => Tab.set s.rules n x
          | none => Tab.erase s.rules n })

/-- R174, R182: the completion of a RESTART: the queues are emptied, the blocks rebuild, RESTARTED is made
with the mode and the numbers discarded, then the REPLY, then the reports made while the blocks rebuilt,
and the triggers are evaluated (their order is the model's choice, assumption 19). R60, R19, R87: no request
waits, no record is staged, no order is held, every station is UNSEEN with count 0 and no sequence, every
axis has an empty move list, no coupled run and its latch clear; the error counts stand. R37 Table 2-8: the
field points. R162: the calls started again. R122: the doors. R146 Table 7-8: the zones. R182: classes
counted afresh, the mode, points 696 and 698; R37: the axis, ownership and bridge points. -/
def Obligations.RestartRebuildsTheBlocks : Prop :=
  (∀ (r : Request) (rest : List Request) (s u v : State), s.manage = r :: rest → r.body = .restart →
    u = rebuild (restartBegin s) →
    v = (u.rebuilding.getD []).foldl (fun t x => offerReport x t)
      (replyTo r .ok [] (offerReport ⟨true, .restarted u.mode s.hold.length s.reports.length
        rest.length⟩ { u with rebuilding := none })) →
    exec .restart s = .next (settle (evalTriggers { v with manage := [] }))) ∧
  (∀ (r : Request) (rest : List Request) (s : State), s.manage = r :: rest → r.body = .restart →
    ∃ t, exec .restart s = .next t ∧ t.manage = [] ∧ t.staging = none ∧
      t.hold = [] ∧ t.rebuilding = none ∧
      t.link.errB = s.link.errB ∧ t.link.errD = s.link.errD ∧
      (∀ n, (getStation t n).state = .unseen ∧ (getStation t n).count = 0 ∧
        (getStation t n).lastSeq = none) ∧
      (∀ a : AxisId, (getAxis t a).pending = [] ∧ (getAxis t a).current = none ∧
        (getAxis t a).run = none ∧ (getAxis t a).latch = false) ∧
      (Canonical s → ∀ n, n ≤ 511 → getPoint t n =
        if (getPoint s n).quality = .forced then getPoint s n
        else if retentionOf s n = .keep ∧ (getPoint s n).quality ≠ .never
          then { getPoint s n with quality := .stale }
        else { value := 0, quality := .never, age := 0 })) ∧
  (∀ s u : State, u = rebuild s → s.rebuilding ≠ none →
    (∀ c, getClass u c =
      { active := decide (0 < contributors u c), count := contributors u c, timer := 0 }) ∧
    (s.mode = .config → u.mode = .config) ∧
    (∀ c, s.mode ≠ .config → 0 < contributors u c → responseTo u c = .safe → u.mode = .safe) ∧
    (s.mode ≠ .config → (∀ c, 0 < contributors u c → responseTo u c = .goOn) → u.mode = .run) ∧
    getPoint u 696 = { value := BitVec.ofNat 16 u.mode.code, quality := .fresh, age := 0 } ∧
    getPoint u 697 = { value := if u.link.bridge = .heard then 1 else 0, quality := .fresh, age := 0 } ∧
    getPoint u 698 = { value := BitVec.ofNat 16 (activeSet u).toNat, quality := .fresh, age := 0 } ∧
    (∀ (a : AxisId) (k : Nat), k < 8 → getPoint u (512 + 8 * a.val + k) =
      { value := BitVec.ofNat 16 (axisQuantity u (getAxis u a) k), quality := .fresh, age := 0 }) ∧
    (∀ n, n < 24 → getPoint u (672 + n) =
      { value := BitVec.ofNat 16 (ownerPriority u.calls n), quality := .fresh, age := 0 })) ∧
  (∀ s u : State, u = restartCalls s →
    u.calls.map (fun c => (c.template, c.starter)) = (s.calls.filter (fun c =>
      decide (c.priority = 0) && (Tab.get? s.templates c.template).isSome &&
      match c.starter with
      | .zone z => (Tab.get? s.zones z).any (fun w => decide (w.state = .closing) ||
          decide (w.state = .secured) || decide (w.state = .incomplete))
      | _ => false)).map (fun c => (c.template, c.starter)) ∧
    ∀ c ∈ u.calls, ∃ tpl, Tab.get? s.templates c.template = some tpl ∧ c.state = .waiting ∧
      c.priority = tpl.priority ∧ c.source = tpl.source ∧ c.base = tpl.zones ∧
      c.chime = (if tpl.preChime then .due else .finished) ∧
      c.remaining = (if tpl.duration = 0 then none else some (tpl.duration * 10))) ∧
  (∀ (s : State) (d : Nat) (x : Door), Canonical s → Tab.get? s.doors d = some x →
    x.cfg.closedPoint ≤ 511 → x.cfg.openPoint ≤ 511 →
    Tab.get? (restartDoors s).doors d =
      some (deriveDoor s { x with inFlight := .none, remaining := 0, jam := false })) ∧
  (∀ (s : State) (z : Nat) (w v : Zone), Tab.get? s.zones z = some w →
    v = { w with timer := 0, alertCall := none, cursor := none, wait := .none, reclose := none } →
    ((w.state = .normal ∨ w.state = .secured ∨ w.state = .incomplete) →
      restartZone z s = setZone z v s) ∧
    (w.state = .alert → restartZone z s =
      startAlertCall z (setZone z { v with timer := w.cfg.alertTime } s)) ∧
    (w.state = .closing → w.cfg.policy = .rerun → w.cfg.program ≠ none →
      restartZone z s = (walkFrom z 1 (setZone z v s)).1) ∧
    (w.state = .closing → (w.cfg.policy = .conclude ∨ w.cfg.program = none) →
      ((∀ e ∈ ownDoors s z, doorClosed s e.1 = true) →
        restartZone z s = setZone z { v with state := .secured } s) ∧
      ((∃ e ∈ ownDoors s z, doorClosed s e.1 = false) →
        restartZone z s = setZone z { v with state := .incomplete } s)))

/-! ## Chapter 10: modes and faults -/

/-- R176 Table 10-1, R177, R180: SET_MODE answers OK in the mode that stands; takes RUN to SAFE; takes SAFE
to RUN unless an active class has response SAFE; takes RUN and SAFE to CONFIG when the axes, zones and
calls allow it; leaves CONFIG when validation finds nothing, into SAFE for RUN where an active class has
response SAFE; and answers MODE, VALIDATION or RANGE otherwise. R176: the axes, zones and calls allow CONFIG
when every axis is IDLE without a pending move, DISABLED or FAULT, every zone NORMAL and no call EMERGENCY.
R180: the class that takes the part into SAFE is the lowest active one with response SAFE. R177 Table 10-2,
R106, R108, R144: validation names the first bad entry, axes before doors before zones before programs, and
what it asks of an entry of each; a zone whose parents lead into a cycle it is no part of counts as
deeper than 4, and one whose parent has no valid entry as depth 1 (the model's choice, assumption 46). The change events of the effect are taken before the
REPLY is queued (the model's choice, assumption 47). -/
def Obligations.SetModeFollowsTheModeThatStands : Prop :=
  ∀ (r : Request) (rest : List Request) (m : Nat) (s : State), s.manage = r :: rest →
    r.body = .setMode m →
    (m = s.mode.code → exec .setMode s = .next (completed r .ok [] s)) ∧
    (m = 2 → s.mode = .run →
      exec .setMode s = .next (completed r .ok [] (enterSafe (.request r.tag) s))) ∧
    (m = 1 → s.mode = .safe → (∀ c, (getClass s c).active = true → responseTo s c = .goOn) →
      exec .setMode s = .next (completed r .ok []
        (offerReport ⟨true, .modeChanged .safe .run (.request r.tag)⟩
          (writePoints [(696, 1)] { s with mode := .run })))) ∧
    (∀ c, m = 1 → s.mode = .safe → (getClass s c).active = true → responseTo s c = .safe →
      exec .setMode s = .next (completed r .mode [] s)) ∧
    (m = 0 → s.mode ≠ .config → configAllowed s = true →
      exec .setMode s = .next (completed r .ok [] (enterConfig (.request r.tag) s))) ∧
    (m = 0 → s.mode ≠ .config → configAllowed s = false →
      exec .setMode s = .next (completed r .mode [] s)) ∧
    (∀ t i, (m = 1 ∨ m = 2) → s.mode = .config → validate s = some (t, i) →
      exec .setMode s = .next (completed r (.validation t i) [] s)) ∧
    (m = 1 → s.mode = .config → validate s = none →
      (∀ c, (getClass s c).active = true → responseTo s c = .goOn) →
      exec .setMode s = .next (completed r .ok [] (leaveConfig .run (.request r.tag) s))) ∧
    (∀ c, m = 1 → s.mode = .config → validate s = none → safeClass s = some c →
      exec .setMode s = .next (completed r .ok [] (leaveConfig .safe (.fault c) s))) ∧
    (m = 2 → s.mode = .config → validate s = none →
      exec .setMode s = .next (completed r .ok [] (leaveConfig .safe (.request r.tag) s))) ∧
    (2 < m → exec .setMode s = .next (completed r .range [] s)) ∧
    (configAllowed s = true ↔
      (∀ a : AxisId, ((getAxis s a).state = .idle ∧ (getAxis s a).pending = []) ∨
        (getAxis s a).state = .disabled ∨ (getAxis s a).state = .fault) ∧
      (∀ e ∈ s.zones, e.2.state = .normal) ∧ (∀ c ∈ s.calls, c.priority ≠ 0)) ∧
    (∀ c, safeClass s = some c ↔ (getClass s c).active = true ∧ responseTo s c = .safe ∧
      ∀ d, d.bit < c.bit → (getClass s d).active = true → responseTo s d = .goOn) ∧
    (∀ badAxis : AxisId → Prop, (∀ a, badAxis a ↔
        ∃ c, (getAxis s a).cfg = some c ∧ axisValid s c = false) →
      (∀ i, validate s = some (3, i) ↔ ∃ a : AxisId, a.val = i ∧ badAxis a ∧ ∀ b < a, ¬badAxis b) ∧
      (∀ i, validate s = some (4, i) ↔ (∀ a, ¬badAxis a) ∧ ∃ before x after,
        s.doors = before ++ (i, x) :: after ∧ doorValid s x.cfg = false ∧
        ∀ e ∈ before, doorValid s e.2.cfg = true) ∧
      (∀ i, validate s = some (5, i) ↔ (∀ a, ¬badAxis a) ∧
        (∀ e ∈ s.doors, doorValid s e.2.cfg = true) ∧ ∃ before x after,
        s.zones = before ++ (i, x) :: after ∧ zoneValid s i x.cfg = false ∧
        ∀ e ∈ before, zoneValid s e.1 e.2.cfg = true) ∧
      (∀ i, validate s = some (6, i) ↔ (∀ a, ¬badAxis a) ∧
        (∀ e ∈ s.doors, doorValid s e.2.cfg = true) ∧
        (∀ e ∈ s.zones, zoneValid s e.1 e.2.cfg = true) ∧ ∃ before x after,
        s.programs = before ++ (i, x) :: after ∧ programValid s x = false ∧
        ∀ e ∈ before, programValid s e.2 = true) ∧
      (validate s = none ↔ (∀ a, ¬badAxis a) ∧ (∀ e ∈ s.doors, doorValid s e.2.cfg = true) ∧
        (∀ e ∈ s.zones, zoneValid s e.1 e.2.cfg = true) ∧
        (∀ e ∈ s.programs, programValid s e.2 = true))) ∧
    (∀ c : AxisCfg, axisValid s c = true ↔
      (∀ z, c.zone = some z → ∃ w, Tab.get? s.zones z = some w) ∧
      (∀ n, c.warning = some n → ∃ w, Tab.get? s.templates n = some w) ∧
      (∀ k, c.coupling = some k → ∃ l, (getAxis s k.leader).cfg = some l ∧ l.coupling = none ∧
        l.zone = c.zone ∧ ⌈((l.vmax * k.nf : Nat) : ℚ) / (k.nl : ℚ)⌉ ≤ (c.vmax : Int))) ∧
    (∀ c : DoorCfg, doorValid s c = true ↔
      (∃ e, (getStation s c.station).entry = some e ∧ e.side = .d) ∧
      (∃ w, Tab.get? s.zones c.zone = some w) ∧ (∃ e ∈ s.pointMap, e.2.point = c.closedPoint) ∧
      (∃ e ∈ s.pointMap, e.2.point = c.openPoint)) ∧
    (∀ (z : Nat) (c : ZoneCfg), zoneValid s z c = true ↔
      (∀ q, c.parent = some q → ∃ w, Tab.get? s.zones q = some w) ∧
      z ∉ ancestors s.zones Config.zoneFuel z ∧
      (ancestors s.zones Config.zoneFuel z).length + 1 ≤ 4 ∧
      (∀ q, c.program = some q → ∃ w, Tab.get? s.programs q = some w) ∧
      (∀ n, c.alertTemplate = some n → ∃ w, Tab.get? s.templates n = some w)) ∧
    (∀ prog : List ProgStep, programValid s prog = true ↔ ∀ k step, prog[k]? = some step →
      (∀ c target, step = .branch c target → k + 1 < target ∧ target ≤ prog.length) ∧
      (∀ st code d v, step = .order st code d v → code ≠ 0x11) ∧
      (∀ n, step = .call n → ∃ w, Tab.get? s.templates n = some w))

/-- R176, R59, R82, R83, R102: the entry into SAFE leaves mode SAFE, no held order, and every run latch clear
but those of DISABLED axes. An axis that is no follower: MOVING above its VS it begins STOPPING with
outcome SAFE named, MOVING at or below it comes to rest at once in IDLE with last outcome SAFE and CP where
it was; in any other state it keeps its state and its move; its pending moves stay under KEEP and are
gone under FLUSH. R79 is followed for a LAND move in CREEP too (the model's choice, assumption 44). -/
def Obligations.SafeEntryHoldsTheRamps : Prop :=
  ∀ (cause : ModeCause) (s : State), (enterSafe cause s).mode = .safe ∧
    (enterSafe cause s).hold = [] ∧
    (∀ a : AxisId, (getAxis s a).state ≠ .disabled → (getAxis (enterSafe cause s) a).latch = false) ∧
    (∀ (a : AxisId) (x y : Axis), x = getAxis s a → y = getAxis (enterSafe cause s) a →
      x.coupling = none →
      (∀ c, x.state = .moving → x.current = some c → c.vs < c.vacc / 1000 →
        y.state = .stopping ∧ y.phase = .none ∧ y.current = some c ∧
        y.stop = some { outcome := .safe, namer := none }) ∧
      (∀ c, x.state = .moving → x.current = some c → c.vacc / 1000 ≤ c.vs →
        y.state = .idle ∧ y.phase = .none ∧ y.current = none ∧ y.stop = none ∧
        y.lastOutcome = some .safe ∧ y.cp = x.cp) ∧
      (x.state ≠ .moving → y.state = x.state ∧ y.current = x.current ∧ y.stop = x.stop) ∧
      (∀ cfg, x.cfg = some cfg → x.state ≠ .disabled →
        y.pending = match cfg.policy with
          | .keep => x.pending
          | .flush => []))

/-- R18, R20, R54, R113, R117, R128, R138, R159, R178: what one 100 ms tick counts. R178: an occurrence class
whose timer has reached 0 becomes inactive: point 698 is written and a FAULT report queued; an
occurrence class that is not active, or whose timer runs, stays as it is. R178, R180: a telling of a level
class takes its count from the blocks' own state (the model's reading, assumption 20); where that makes it active or inactive, point 698 is written and a
FAULT report with the contributor queued, and a class that becomes active in RUN with response SAFE takes
the part into SAFE; one telling of two classes, given lower bit first as every block gives them, writes
698 once and reports the lower bit first. An
occurrence sets its class active with its timer at 100 in the same way, and restarts the timer of an
active class without a report. (Tellings while the blocks rebuild are ignored: the model's choice,
assumption 19.) -/
def Obligations.HundredMillisecondTickCounts : Prop :=
  (∀ s : State, exec .tick100Ms s = .next (settle { s with
     link := if s.link.bridge = .heard then { s.link with
         silence := s.link.silence + 1
         silenceDue := decide (s.settings.silenceLimit ≤ s.link.silence + 1) } else s.link
     stations := s.stations.map (fun e => (e.1, if e.2.state = .online
       then { e.2 with count := e.2.count + 1 } else e.2))
     hold := s.hold.map (fun h => { h with remaining := h.remaining - 1 })
     doors := s.doors.map (fun e => (e.1, if e.2.inFlight = .close
       then { e.2 with remaining := e.2.remaining - 1 } else e.2))
     zones := s.zones.map (fun e => (e.1, { e.2 with
       timer := if e.2.state = .alert then e.2.timer - 1 else e.2.timer
       wait := match e.2.wait with
         | .await n => .await (n - 1)
         | .pause100 n => .pause100 (n - 1)
         | w => w
       reclose := e.2.reclose.map (fun n => n - 1) }))
     calls := s.calls.map (fun c => { c with remaining := c.remaining.map (fun n => n - 1) })
     classes := s.classes.map (fun x => { x with timer := x.timer - 1 }) })) ∧
  (∀ (o : OccurrenceClass) (c : FaultClass) (s u : State), c = occurrenceFault o →
     u = setClass c { getClass s c with active := false } s →
     ((getClass s c).active = true → (getClass s c).timer = 0 →
       exec (.occurrenceTimerExpiry o) s = .next (settle (offerReport
         ⟨true, .fault c false .none (activeSet u)⟩ (writePoints [(698, (activeSet u).toNat)] u)))) ∧
     ((getClass s c).active = false ∨ (getClass s c).timer ≠ 0 →
       exec (.occurrenceTimerExpiry o) s = .next (settle s))) ∧
  (∀ (c : FaultClass) (who : Contributor) (s u v : State), s.rebuilding = none →
     u = setClass c { getClass s c with
       count := contributors s c, active := decide (0 < contributors s c) } s →
     v = offerReport ⟨true, .fault c (decide (0 < contributors s c)) who (activeSet u)⟩
       (writePoints [(698, (activeSet u).toNat)] u) →
     ((getClass s c).active = decide (0 < contributors s c) → tell [c] who s = u) ∧
     ((getClass s c).active ≠ decide (0 < contributors s c) →
       (0 < contributors s c → s.mode = .run → responseTo s c = .safe →
         tell [c] who s = enterSafe (.fault c) v) ∧
       (contributors s c = 0 ∨ s.mode ≠ .run ∨ responseTo s c = .goOn → tell [c] who s = v))) ∧
  (∀ (c d : FaultClass) (who : Contributor) (s u : State), s.rebuilding = none → c.bit < d.bit →
     (getClass s c).active ≠ decide (0 < contributors s c) →
     (getClass s d).active ≠ decide (0 < contributors s d) →
     (s.mode ≠ .run ∨ (responseTo s c = .goOn ∧ responseTo s d = .goOn)) →
     u = setClass d { getClass s d with
       count := contributors s d, active := decide (0 < contributors s d) }
       (setClass c { getClass s c with
         count := contributors s c, active := decide (0 < contributors s c) } s) →
     tell [c, d] who s =
       offerReport ⟨true, .fault d (decide (0 < contributors s d)) who (activeSet u)⟩
         (offerReport ⟨true, .fault c (decide (0 < contributors s c)) who (activeSet u)⟩
           (writePoints [(698, (activeSet u).toNat)] u))) ∧
  (∀ (o : OccurrenceClass) (c : FaultClass) (who : Contributor) (s u v : State),
     s.rebuilding = none → c = occurrenceFault o →
     u = setClass c { getClass s c with active := true, timer := 100 } s →
     v = offerReport ⟨true, .fault c true who (activeSet u)⟩
       (writePoints [(698, (activeSet u).toNat)] u) →
     ((getClass s c).active = true → occurrence o who s = u) ∧
     ((getClass s c).active = false → s.mode = .run → responseTo s c = .safe →
       occurrence o who s = enterSafe (.fault c) v) ∧
     ((getClass s c).active = false → (s.mode ≠ .run ∨ responseTo s c = .goOn) →
       occurrence o who s = v))

/-! ## Invariants -/

/-- R175 Table 9-4, R166, R176: of all commands only WRITE_ENTRY, CLEAR_ENTRY and POWER_ON_RESET change
what any of the eleven tables says. -/
def Obligations.TablesChangeOnlyByTheirWrites : Prop :=
  ∀ (c : Instr) (s t : State), Canonical s → writesTables c = false → exec c s = .next t →
    SameTables s t

/-- R12 to R14, R16, R54, R66, R150, R164, R172: no step makes a queue or a list longer than the manual
allows. -/
def Obligations.CapacitiesKeptByEveryStep : Prop :=
  ∀ s t : State, Bounded s → step s = .next t → Bounded t

/-- The model's canonical form (assumption 26): every step keeps every table's numbers strictly rising and
lists no NEVER point in its power-on form and no empty station slot. -/
def Obligations.CanonicalFormKeptByEveryStep : Prop :=
  ∀ s t : State, Canonical s → step s = .next t → Canonical t

/-- The invariants hold right after power-on reset. -/
def Obligations.ResetMeetsTheInvariants : Prop :=
  Bounded State.reset ∧ Canonical State.reset ∧ Owned State.reset

end
end

