-- ==== Sys2Proof/Laws/Tab.lean ====
section
/-! SUPPORT. The laws of sparse tables: reading after a write, after a removal and after a change, and the
canonical form kept by each. -/

namespace Sys2Proof.Machine

open Sys2Proof

variable {α : Type}

@[simp] theorem Tab.get?_nil (n : Nat) : Tab.get? ([] : Tab α) n = none := rfl

theorem Tab.get?_cons (k : Nat) (v : α) (t : Tab α) (n : Nat) :
    Tab.get? ((k, v) :: t) n = if k = n then some v else Tab.get? t n := rfl

@[simp] theorem Tab.get?_set_same (t : Tab α) (n : Nat) (v : α) :
    Tab.get? (Tab.set t n v) n = some v := by
  induction t with
  | nil => simp [Tab.set, Tab.get?]
  | cons e t ih =>
    obtain ⟨k, w⟩ := e
    simp only [Tab.set]
    split_ifs with h1 h2
    · simp [Tab.get?]
    · simp [Tab.get?]
    · have : ¬ k = n := fun h => h2 h.symm
      simp [Tab.get?, this, ih]

theorem Tab.get?_set_other (t : Tab α) (n m : Nat) (v : α) (h : m ≠ n) :
    Tab.get? (Tab.set t n v) m = Tab.get? t m := by
  have hn : ¬ n = m := fun e => h e.symm
  induction t with
  | nil => simp [Tab.set, Tab.get?, hn]
  | cons e t ih =>
    obtain ⟨k, w⟩ := e
    simp only [Tab.set]
    split_ifs with h1 h2
    · simp [Tab.get?, hn]
    · subst h2; simp [Tab.get?, hn]
    · simp [Tab.get?, ih]

/-- Reading after a write. -/
theorem Tab.get?_set (t : Tab α) (n m : Nat) (v : α) :
    Tab.get? (Tab.set t n v) m = if m = n then some v else Tab.get? t m := by
  split_ifs with h
  · subst h; simp
  · exact Tab.get?_set_other t n m v h

/-- Reading after a removal. -/
theorem Tab.get?_erase (t : Tab α) (n m : Nat) :
    Tab.get? (Tab.erase t n) m = if m = n then none else Tab.get? t m := by
  induction t with
  | nil => simp [Tab.erase]
  | cons e t ih =>
    obtain ⟨k, w⟩ := e
    simp only [Tab.erase] at ih ⊢
    by_cases hk : k = n
    · subst hk
      simp only [ne_eq, not_true, decide_false, Bool.false_eq_true, not_false_iff,
        List.filter_cons_of_neg, ih, Tab.get?_cons]
      by_cases hm : m = k
      · simp [hm]
      · have hk : ¬ k = m := fun e => hm e.symm
        simp [hm, hk]
    · simp only [ne_eq, hk, not_false_iff, decide_true, List.filter_cons_of_pos, Tab.get?_cons, ih]
      by_cases hm : m = n
      · subst hm; simp [hk]
      · simp [hm]

/-- Reading a table whose records were all changed. -/
theorem Tab.get?_map (t : Tab α) (g : Nat → α → α) (n : Nat) :
    Tab.get? (t.map (fun e => (e.1, g e.1 e.2))) n = (Tab.get? t n).map (g n) := by
  induction t with
  | nil => rfl
  | cons e t ih =>
    obtain ⟨k, w⟩ := e
    simp only [List.map_cons, Tab.get?_cons, ih]
    split_ifs with h
    · subst h; rfl
    · rfl

theorem Tab.get?_mem {t : Tab α} {n : Nat} {v : α} (h : Tab.get? t n = some v) : (n, v) ∈ t := by
  induction t with
  | nil => simp at h
  | cons e t ih =>
    obtain ⟨k, w⟩ := e
    rw [Tab.get?_cons] at h
    split_ifs at h with hk
    · cases h; subst hk; exact List.mem_cons_self
    · exact List.mem_cons_of_mem _ (ih h)

/-! ## The canonical form -/

@[simp] theorem Tab.sorted_nil : Tab.Sorted ([] : Tab α) = true := rfl

theorem Tab.sorted_cons (k : Nat) (v : α) (t : Tab α) :
    Tab.Sorted ((k, v) :: t) = true ↔ (∀ e ∈ t, k < e.1) ∧ Tab.Sorted t = true := by
  simp [Tab.Sorted]

/-- The canonical form says that the numbers rise strictly. -/
theorem Tab.sorted_iff (t : Tab α) : Tab.Sorted t = true ↔ t.Pairwise (fun a b => a.1 < b.1) := by
  induction t with
  | nil => simp
  | cons e t ih =>
    obtain ⟨k, v⟩ := e
    rw [Tab.sorted_cons, ih, List.pairwise_cons]

theorem Tab.mem_set {t : Tab α} {n : Nat} {v : α} {e : Nat × α} (h : e ∈ Tab.set t n v) :
    e = (n, v) ∨ e ∈ t := by
  induction t with
  | nil => simpa [Tab.set] using h
  | cons x t ih =>
    obtain ⟨k, w⟩ := x
    simp only [Tab.set] at h
    split_ifs at h with h1 h2
    · simp only [List.mem_cons] at h ⊢; tauto
    · simp only [List.mem_cons] at h ⊢; tauto
    · simp only [List.mem_cons] at h ⊢
      rcases h with h | h
      · tauto
      · rcases ih h with h | h <;> tauto

/-- A write keeps the canonical form. -/
theorem Tab.sorted_set (t : Tab α) (n : Nat) (v : α) (h : Tab.Sorted t = true) :
    Tab.Sorted (Tab.set t n v) = true := by
  induction t with
  | nil => simp [Tab.set, Tab.Sorted]
  | cons x t ih =>
    obtain ⟨k, w⟩ := x
    rw [Tab.sorted_cons] at h
    simp only [Tab.set]
    split_ifs with h1 h2
    · rw [Tab.sorted_cons, Tab.sorted_cons]
      refine ⟨?_, h⟩
      intro e he
      rcases List.mem_cons.1 he with he | he
      · subst he; exact h1
      · exact lt_trans h1 (h.1 e he)
    · subst h2; rw [Tab.sorted_cons]; exact h
    · rw [Tab.sorted_cons]
      refine ⟨?_, ih h.2⟩
      intro e he
      rcases Tab.mem_set he with he | he
      · subst he; simp only; omega
      · exact h.1 e he

/-- Leaving records out keeps the canonical form. -/
theorem Tab.sorted_filter (t : Tab α) (p : Nat × α → Bool) (h : Tab.Sorted t = true) :
    Tab.Sorted (t.filter p) = true := by
  rw [Tab.sorted_iff] at h ⊢
  exact h.filter p

/-- A removal keeps the canonical form. -/
theorem Tab.sorted_erase (t : Tab α) (n : Nat) (h : Tab.Sorted t = true) :
    Tab.Sorted (Tab.erase t n) = true := Tab.sorted_filter t _ h

/-- Changing records under their numbers keeps the canonical form. -/
theorem Tab.sorted_map (t : Tab α) (g : Nat × α → α) (h : Tab.Sorted t = true) :
    Tab.Sorted (t.map (fun e => (e.1, g e))) = true := by
  rw [Tab.sorted_iff] at h ⊢
  exact List.pairwise_map.2 h

/-- Changing or leaving out records under their numbers keeps the canonical form. -/
theorem Tab.sorted_filterMap (t : Tab α) (g : Nat × α → Option α) (h : Tab.Sorted t = true) :
    Tab.Sorted (t.filterMap (fun e => (g e).map (fun v => (e.1, v)))) = true := by
  rw [Tab.sorted_iff] at h ⊢
  rw [List.pairwise_filterMap]
  refine h.imp ?_
  intro a b hab x hx y hy
  simp only [Option.map_eq_some_iff] at hx hy
  obtain ⟨_, _, rfl⟩ := hx
  obtain ⟨_, _, rfl⟩ := hy
  exact hab

/-! ## The point image -/

/-- Reading the image after one point was set. -/
theorem getD_putPoint (t : Tab Point) (n m : Nat) (p : Point) :
    (Tab.get? (putPoint t n p) m).getD {} = if m = n then p else (Tab.get? t m).getD {} := by
  unfold putPoint
  split_ifs with hp hm hm
  · subst hm; simp [Tab.get?_erase, hp]
  · simp [Tab.get?_erase, hm]
  · subst hm; simp
  · simp [Tab.get?_set, hm]

theorem sorted_putPoint (t : Tab Point) (n : Nat) (p : Point) (h : Tab.Sorted t = true) :
    Tab.Sorted (putPoint t n p) = true := by
  unfold putPoint
  split_ifs
  · exact Tab.sorted_erase t n h
  · exact Tab.sorted_set t n p h

theorem listed_putPoint (t : Tab Point) (n : Nat) (p : Point) (h : ∀ e ∈ t, e.2 ≠ {}) :
    ∀ e ∈ putPoint t n p, e.2 ≠ {} := by
  unfold putPoint
  split_ifs with hp
  · intro e he; exact h e (List.mem_of_mem_filter he)
  · intro e he
    rcases Tab.mem_set he with he | he
    · subst he; exact hp
    · exact h e he

/-- Taking the first element that meets a test: it meets it, none before it does, and the rest is the
list without it. -/
theorem takeFirst_some {p : α → Bool} {l : List α} {x : α} {rest : List α}
    (h : takeFirst p l = some (x, rest)) :
    ∃ older newer, l = older ++ x :: newer ∧ rest = older ++ newer ∧ p x = true ∧
      ∀ y ∈ older, p y = false := by
  induction l generalizing rest with
  | nil => simp [takeFirst] at h
  | cons y l ih =>
    simp only [takeFirst] at h
    split_ifs at h with hy
    · simp only [Option.some.injEq, Prod.mk.injEq] at h
      obtain ⟨rfl, rfl⟩ := h
      exact ⟨[], l, rfl, rfl, hy, by simp⟩
    · split at h
      · rename_i z zs hz
        simp only [Option.some.injEq, Prod.mk.injEq] at h
        obtain ⟨rfl, rfl⟩ := h
        obtain ⟨o, n, h1, h2, h3, h4⟩ := ih hz
        refine ⟨y :: o, n, by simp [h1], by simp [h2], h3, ?_⟩
        intro w hw
        rcases List.mem_cons.1 hw with hw | hw
        · subst hw; simpa using hy
        · exact h4 w hw
      · simp at h

theorem takeFirst_none {p : α → Bool} {l : List α} (h : takeFirst p l = none) :
    ∀ y ∈ l, p y = false := by
  induction l with
  | nil => simp
  | cons y l ih =>
    simp only [takeFirst] at h
    split_ifs at h with hy
    split at h
    · simp at h
    · rename_i hz
      intro w hw
      rcases List.mem_cons.1 hw with hw | hw
      · subst hw; simpa using hy
      · exact ih hz w hw

theorem takeFirst_append {p : α → Bool} (older newer : List α) (x : α)
    (ho : ∀ y ∈ older, p y = false) (hx : p x = true) :
    takeFirst p (older ++ x :: newer) = some (x, older ++ newer) := by
  induction older with
  | nil => simp [takeFirst, hx]
  | cons y l ih =>
    have hy := ho y List.mem_cons_self
    have := ih (fun z hz => ho z (List.mem_cons_of_mem _ hz))
    simp [takeFirst, hy, this]

theorem takeFirst_length {p : α → Bool} {l : List α} {x : α} {rest : List α}
    (h : takeFirst p l = some (x, rest)) : l.length = rest.length + 1 := by
  obtain ⟨o, n, rfl, rfl, -, -⟩ := takeFirst_some h
  simp; omega

end Sys2Proof.Machine
end

