-- ==== Sys2Proof/Laws/State.lean ====
section
/-! SUPPORT. What each named update of the state leaves and sets, one lemma per field per update. -/

namespace Sys2Proof.Machine

open Sys2Proof

@[simp] theorem setAxis_link (a : AxisId) (x : Axis) (s : State) : (setAxis a x s).link = s.link := rfl
@[simp] theorem setAxis_stations (a : AxisId) (x : Axis) (s : State) : (setAxis a x s).stations = s.stations := rfl
@[simp] theorem setAxis_points (a : AxisId) (x : Axis) (s : State) : (setAxis a x s).points = s.points := rfl
@[simp] theorem setAxis_pointMap (a : AxisId) (x : Axis) (s : State) : (setAxis a x s).pointMap = s.pointMap := rfl
@[simp] theorem setAxis_events (a : AxisId) (x : Axis) (s : State) : (setAxis a x s).events = s.events := rfl
@[simp] theorem setAxis_rules (a : AxisId) (x : Axis) (s : State) : (setAxis a x s).rules = s.rules := rfl
@[simp] theorem setAxis_hold (a : AxisId) (x : Axis) (s : State) : (setAxis a x s).hold = s.hold := rfl
@[simp] theorem setAxis_partner (a : AxisId) (x : Axis) (s : State) : (setAxis a x s).partner = s.partner := rfl
@[simp] theorem setAxis_doors (a : AxisId) (x : Axis) (s : State) : (setAxis a x s).doors = s.doors := rfl
@[simp] theorem setAxis_zones (a : AxisId) (x : Axis) (s : State) : (setAxis a x s).zones = s.zones := rfl
@[simp] theorem setAxis_programs (a : AxisId) (x : Axis) (s : State) : (setAxis a x s).programs = s.programs := rfl
@[simp] theorem setAxis_templates (a : AxisId) (x : Axis) (s : State) : (setAxis a x s).templates = s.templates := rfl
@[simp] theorem setAxis_audioZones (a : AxisId) (x : Axis) (s : State) : (setAxis a x s).audioZones = s.audioZones := rfl
@[simp] theorem setAxis_calls (a : AxisId) (x : Axis) (s : State) : (setAxis a x s).calls = s.calls := rfl
@[simp] theorem setAxis_lastNumber (a : AxisId) (x : Axis) (s : State) : (setAxis a x s).lastNumber = s.lastNumber := rfl
@[simp] theorem setAxis_manage (a : AxisId) (x : Axis) (s : State) : (setAxis a x s).manage = s.manage := rfl
@[simp] theorem setAxis_staging (a : AxisId) (x : Axis) (s : State) : (setAxis a x s).staging = s.staging := rfl
@[simp] theorem setAxis_reports (a : AxisId) (x : Axis) (s : State) : (setAxis a x s).reports = s.reports := rfl
@[simp] theorem setAxis_overflow (a : AxisId) (x : Axis) (s : State) : (setAxis a x s).overflow = s.overflow := rfl
@[simp] theorem setAxis_rebuilding (a : AxisId) (x : Axis) (s : State) : (setAxis a x s).rebuilding = s.rebuilding := rfl
@[simp] theorem setAxis_mode (a : AxisId) (x : Axis) (s : State) : (setAxis a x s).mode = s.mode := rfl
@[simp] theorem setAxis_classes (a : AxisId) (x : Axis) (s : State) : (setAxis a x s).classes = s.classes := rfl
@[simp] theorem setAxis_responses (a : AxisId) (x : Axis) (s : State) : (setAxis a x s).responses = s.responses := rfl
@[simp] theorem setAxis_settings (a : AxisId) (x : Axis) (s : State) : (setAxis a x s).settings = s.settings := rfl
@[simp] theorem setAxis_pending (a : AxisId) (x : Axis) (s : State) : (setAxis a x s).pending = s.pending := rfl

@[simp] theorem setDoor_link (d : Nat) (x : Door) (s : State) : (setDoor d x s).link = s.link := rfl
@[simp] theorem setDoor_stations (d : Nat) (x : Door) (s : State) : (setDoor d x s).stations = s.stations := rfl
@[simp] theorem setDoor_points (d : Nat) (x : Door) (s : State) : (setDoor d x s).points = s.points := rfl
@[simp] theorem setDoor_pointMap (d : Nat) (x : Door) (s : State) : (setDoor d x s).pointMap = s.pointMap := rfl
@[simp] theorem setDoor_events (d : Nat) (x : Door) (s : State) : (setDoor d x s).events = s.events := rfl
@[simp] theorem setDoor_rules (d : Nat) (x : Door) (s : State) : (setDoor d x s).rules = s.rules := rfl
@[simp] theorem setDoor_hold (d : Nat) (x : Door) (s : State) : (setDoor d x s).hold = s.hold := rfl
@[simp] theorem setDoor_axes (d : Nat) (x : Door) (s : State) : (setDoor d x s).axes = s.axes := rfl
@[simp] theorem setDoor_partner (d : Nat) (x : Door) (s : State) : (setDoor d x s).partner = s.partner := rfl
@[simp] theorem setDoor_zones (d : Nat) (x : Door) (s : State) : (setDoor d x s).zones = s.zones := rfl
@[simp] theorem setDoor_programs (d : Nat) (x : Door) (s : State) : (setDoor d x s).programs = s.programs := rfl
@[simp] theorem setDoor_templates (d : Nat) (x : Door) (s : State) : (setDoor d x s).templates = s.templates := rfl
@[simp] theorem setDoor_audioZones (d : Nat) (x : Door) (s : State) : (setDoor d x s).audioZones = s.audioZones := rfl
@[simp] theorem setDoor_calls (d : Nat) (x : Door) (s : State) : (setDoor d x s).calls = s.calls := rfl
@[simp] theorem setDoor_lastNumber (d : Nat) (x : Door) (s : State) : (setDoor d x s).lastNumber = s.lastNumber := rfl
@[simp] theorem setDoor_manage (d : Nat) (x : Door) (s : State) : (setDoor d x s).manage = s.manage := rfl
@[simp] theorem setDoor_staging (d : Nat) (x : Door) (s : State) : (setDoor d x s).staging = s.staging := rfl
@[simp] theorem setDoor_reports (d : Nat) (x : Door) (s : State) : (setDoor d x s).reports = s.reports := rfl
@[simp] theorem setDoor_overflow (d : Nat) (x : Door) (s : State) : (setDoor d x s).overflow = s.overflow := rfl
@[simp] theorem setDoor_rebuilding (d : Nat) (x : Door) (s : State) : (setDoor d x s).rebuilding = s.rebuilding := rfl
@[simp] theorem setDoor_mode (d : Nat) (x : Door) (s : State) : (setDoor d x s).mode = s.mode := rfl
@[simp] theorem setDoor_classes (d : Nat) (x : Door) (s : State) : (setDoor d x s).classes = s.classes := rfl
@[simp] theorem setDoor_responses (d : Nat) (x : Door) (s : State) : (setDoor d x s).responses = s.responses := rfl
@[simp] theorem setDoor_settings (d : Nat) (x : Door) (s : State) : (setDoor d x s).settings = s.settings := rfl
@[simp] theorem setDoor_pending (d : Nat) (x : Door) (s : State) : (setDoor d x s).pending = s.pending := rfl

@[simp] theorem setZone_link (z : Nat) (x : Zone) (s : State) : (setZone z x s).link = s.link := rfl
@[simp] theorem setZone_stations (z : Nat) (x : Zone) (s : State) : (setZone z x s).stations = s.stations := rfl
@[simp] theorem setZone_points (z : Nat) (x : Zone) (s : State) : (setZone z x s).points = s.points := rfl
@[simp] theorem setZone_pointMap (z : Nat) (x : Zone) (s : State) : (setZone z x s).pointMap = s.pointMap := rfl
@[simp] theorem setZone_events (z : Nat) (x : Zone) (s : State) : (setZone z x s).events = s.events := rfl
@[simp] theorem setZone_rules (z : Nat) (x : Zone) (s : State) : (setZone z x s).rules = s.rules := rfl
@[simp] theorem setZone_hold (z : Nat) (x : Zone) (s : State) : (setZone z x s).hold = s.hold := rfl
@[simp] theorem setZone_axes (z : Nat) (x : Zone) (s : State) : (setZone z x s).axes = s.axes := rfl
@[simp] theorem setZone_partner (z : Nat) (x : Zone) (s : State) : (setZone z x s).partner = s.partner := rfl
@[simp] theorem setZone_doors (z : Nat) (x : Zone) (s : State) : (setZone z x s).doors = s.doors := rfl
@[simp] theorem setZone_programs (z : Nat) (x : Zone) (s : State) : (setZone z x s).programs = s.programs := rfl
@[simp] theorem setZone_templates (z : Nat) (x : Zone) (s : State) : (setZone z x s).templates = s.templates := rfl
@[simp] theorem setZone_audioZones (z : Nat) (x : Zone) (s : State) : (setZone z x s).audioZones = s.audioZones := rfl
@[simp] theorem setZone_calls (z : Nat) (x : Zone) (s : State) : (setZone z x s).calls = s.calls := rfl
@[simp] theorem setZone_lastNumber (z : Nat) (x : Zone) (s : State) : (setZone z x s).lastNumber = s.lastNumber := rfl
@[simp] theorem setZone_manage (z : Nat) (x : Zone) (s : State) : (setZone z x s).manage = s.manage := rfl
@[simp] theorem setZone_staging (z : Nat) (x : Zone) (s : State) : (setZone z x s).staging = s.staging := rfl
@[simp] theorem setZone_reports (z : Nat) (x : Zone) (s : State) : (setZone z x s).reports = s.reports := rfl
@[simp] theorem setZone_overflow (z : Nat) (x : Zone) (s : State) : (setZone z x s).overflow = s.overflow := rfl
@[simp] theorem setZone_rebuilding (z : Nat) (x : Zone) (s : State) : (setZone z x s).rebuilding = s.rebuilding := rfl
@[simp] theorem setZone_mode (z : Nat) (x : Zone) (s : State) : (setZone z x s).mode = s.mode := rfl
@[simp] theorem setZone_classes (z : Nat) (x : Zone) (s : State) : (setZone z x s).classes = s.classes := rfl
@[simp] theorem setZone_responses (z : Nat) (x : Zone) (s : State) : (setZone z x s).responses = s.responses := rfl
@[simp] theorem setZone_settings (z : Nat) (x : Zone) (s : State) : (setZone z x s).settings = s.settings := rfl
@[simp] theorem setZone_pending (z : Nat) (x : Zone) (s : State) : (setZone z x s).pending = s.pending := rfl

@[simp] theorem putStation_link (n : Nat) (x : Station) (s : State) : (putStation n x s).link = s.link := rfl
@[simp] theorem putStation_points (n : Nat) (x : Station) (s : State) : (putStation n x s).points = s.points := rfl
@[simp] theorem putStation_pointMap (n : Nat) (x : Station) (s : State) : (putStation n x s).pointMap = s.pointMap := rfl
@[simp] theorem putStation_events (n : Nat) (x : Station) (s : State) : (putStation n x s).events = s.events := rfl
@[simp] theorem putStation_rules (n : Nat) (x : Station) (s : State) : (putStation n x s).rules = s.rules := rfl
@[simp] theorem putStation_hold (n : Nat) (x : Station) (s : State) : (putStation n x s).hold = s.hold := rfl
@[simp] theorem putStation_axes (n : Nat) (x : Station) (s : State) : (putStation n x s).axes = s.axes := rfl
@[simp] theorem putStation_partner (n : Nat) (x : Station) (s : State) : (putStation n x s).partner = s.partner := rfl
@[simp] theorem putStation_doors (n : Nat) (x : Station) (s : State) : (putStation n x s).doors = s.doors := rfl
@[simp] theorem putStation_zones (n : Nat) (x : Station) (s : State) : (putStation n x s).zones = s.zones := rfl
@[simp] theorem putStation_programs (n : Nat) (x : Station) (s : State) : (putStation n x s).programs = s.programs := rfl
@[simp] theorem putStation_templates (n : Nat) (x : Station) (s : State) : (putStation n x s).templates = s.templates := rfl
@[simp] theorem putStation_audioZones (n : Nat) (x : Station) (s : State) : (putStation n x s).audioZones = s.audioZones := rfl
@[simp] theorem putStation_calls (n : Nat) (x : Station) (s : State) : (putStation n x s).calls = s.calls := rfl
@[simp] theorem putStation_lastNumber (n : Nat) (x : Station) (s : State) : (putStation n x s).lastNumber = s.lastNumber := rfl
@[simp] theorem putStation_manage (n : Nat) (x : Station) (s : State) : (putStation n x s).manage = s.manage := rfl
@[simp] theorem putStation_staging (n : Nat) (x : Station) (s : State) : (putStation n x s).staging = s.staging := rfl
@[simp] theorem putStation_reports (n : Nat) (x : Station) (s : State) : (putStation n x s).reports = s.reports := rfl
@[simp] theorem putStation_overflow (n : Nat) (x : Station) (s : State) : (putStation n x s).overflow = s.overflow := rfl
@[simp] theorem putStation_rebuilding (n : Nat) (x : Station) (s : State) : (putStation n x s).rebuilding = s.rebuilding := rfl
@[simp] theorem putStation_mode (n : Nat) (x : Station) (s : State) : (putStation n x s).mode = s.mode := rfl
@[simp] theorem putStation_classes (n : Nat) (x : Station) (s : State) : (putStation n x s).classes = s.classes := rfl
@[simp] theorem putStation_responses (n : Nat) (x : Station) (s : State) : (putStation n x s).responses = s.responses := rfl
@[simp] theorem putStation_settings (n : Nat) (x : Station) (s : State) : (putStation n x s).settings = s.settings := rfl
@[simp] theorem putStation_pending (n : Nat) (x : Station) (s : State) : (putStation n x s).pending = s.pending := rfl

@[simp] theorem setClass_link (c : FaultClass) (x : ClassState) (s : State) : (setClass c x s).link = s.link := rfl
@[simp] theorem setClass_stations (c : FaultClass) (x : ClassState) (s : State) : (setClass c x s).stations = s.stations := rfl
@[simp] theorem setClass_points (c : FaultClass) (x : ClassState) (s : State) : (setClass c x s).points = s.points := rfl
@[simp] theorem setClass_pointMap (c : FaultClass) (x : ClassState) (s : State) : (setClass c x s).pointMap = s.pointMap := rfl
@[simp] theorem setClass_events (c : FaultClass) (x : ClassState) (s : State) : (setClass c x s).events = s.events := rfl
@[simp] theorem setClass_rules (c : FaultClass) (x : ClassState) (s : State) : (setClass c x s).rules = s.rules := rfl
@[simp] theorem setClass_hold (c : FaultClass) (x : ClassState) (s : State) : (setClass c x s).hold = s.hold := rfl
@[simp] theorem setClass_axes (c : FaultClass) (x : ClassState) (s : State) : (setClass c x s).axes = s.axes := rfl
@[simp] theorem setClass_partner (c : FaultClass) (x : ClassState) (s : State) : (setClass c x s).partner = s.partner := rfl
@[simp] theorem setClass_doors (c : FaultClass) (x : ClassState) (s : State) : (setClass c x s).doors = s.doors := rfl
@[simp] theorem setClass_zones (c : FaultClass) (x : ClassState) (s : State) : (setClass c x s).zones = s.zones := rfl
@[simp] theorem setClass_programs (c : FaultClass) (x : ClassState) (s : State) : (setClass c x s).programs = s.programs := rfl
@[simp] theorem setClass_templates (c : FaultClass) (x : ClassState) (s : State) : (setClass c x s).templates = s.templates := rfl
@[simp] theorem setClass_audioZones (c : FaultClass) (x : ClassState) (s : State) : (setClass c x s).audioZones = s.audioZones := rfl
@[simp] theorem setClass_calls (c : FaultClass) (x : ClassState) (s : State) : (setClass c x s).calls = s.calls := rfl
@[simp] theorem setClass_lastNumber (c : FaultClass) (x : ClassState) (s : State) : (setClass c x s).lastNumber = s.lastNumber := rfl
@[simp] theorem setClass_manage (c : FaultClass) (x : ClassState) (s : State) : (setClass c x s).manage = s.manage := rfl
@[simp] theorem setClass_staging (c : FaultClass) (x : ClassState) (s : State) : (setClass c x s).staging = s.staging := rfl
@[simp] theorem setClass_reports (c : FaultClass) (x : ClassState) (s : State) : (setClass c x s).reports = s.reports := rfl
@[simp] theorem setClass_overflow (c : FaultClass) (x : ClassState) (s : State) : (setClass c x s).overflow = s.overflow := rfl
@[simp] theorem setClass_rebuilding (c : FaultClass) (x : ClassState) (s : State) : (setClass c x s).rebuilding = s.rebuilding := rfl
@[simp] theorem setClass_mode (c : FaultClass) (x : ClassState) (s : State) : (setClass c x s).mode = s.mode := rfl
@[simp] theorem setClass_responses (c : FaultClass) (x : ClassState) (s : State) : (setClass c x s).responses = s.responses := rfl
@[simp] theorem setClass_settings (c : FaultClass) (x : ClassState) (s : State) : (setClass c x s).settings = s.settings := rfl
@[simp] theorem setClass_pending (c : FaultClass) (x : ClassState) (s : State) : (setClass c x s).pending = s.pending := rfl

@[simp] theorem announceRoom_link (s : State) : (announceRoom s).link = s.link := rfl
@[simp] theorem announceRoom_stations (s : State) : (announceRoom s).stations = s.stations := rfl
@[simp] theorem announceRoom_points (s : State) : (announceRoom s).points = s.points := rfl
@[simp] theorem announceRoom_pointMap (s : State) : (announceRoom s).pointMap = s.pointMap := rfl
@[simp] theorem announceRoom_events (s : State) : (announceRoom s).events = s.events := rfl
@[simp] theorem announceRoom_rules (s : State) : (announceRoom s).rules = s.rules := rfl
@[simp] theorem announceRoom_hold (s : State) : (announceRoom s).hold = s.hold := rfl
@[simp] theorem announceRoom_axes (s : State) : (announceRoom s).axes = s.axes := rfl
@[simp] theorem announceRoom_partner (s : State) : (announceRoom s).partner = s.partner := rfl
@[simp] theorem announceRoom_doors (s : State) : (announceRoom s).doors = s.doors := rfl
@[simp] theorem announceRoom_programs (s : State) : (announceRoom s).programs = s.programs := rfl
@[simp] theorem announceRoom_templates (s : State) : (announceRoom s).templates = s.templates := rfl
@[simp] theorem announceRoom_audioZones (s : State) : (announceRoom s).audioZones = s.audioZones := rfl
@[simp] theorem announceRoom_calls (s : State) : (announceRoom s).calls = s.calls := rfl
@[simp] theorem announceRoom_lastNumber (s : State) : (announceRoom s).lastNumber = s.lastNumber := rfl
@[simp] theorem announceRoom_manage (s : State) : (announceRoom s).manage = s.manage := rfl
@[simp] theorem announceRoom_staging (s : State) : (announceRoom s).staging = s.staging := rfl
@[simp] theorem announceRoom_reports (s : State) : (announceRoom s).reports = s.reports := rfl
@[simp] theorem announceRoom_overflow (s : State) : (announceRoom s).overflow = s.overflow := rfl
@[simp] theorem announceRoom_rebuilding (s : State) : (announceRoom s).rebuilding = s.rebuilding := rfl
@[simp] theorem announceRoom_mode (s : State) : (announceRoom s).mode = s.mode := rfl
@[simp] theorem announceRoom_classes (s : State) : (announceRoom s).classes = s.classes := rfl
@[simp] theorem announceRoom_responses (s : State) : (announceRoom s).responses = s.responses := rfl
@[simp] theorem announceRoom_settings (s : State) : (announceRoom s).settings = s.settings := rfl
@[simp] theorem announceRoom_pending (s : State) : (announceRoom s).pending = s.pending := rfl

@[simp] theorem modifyAxis_link (a : AxisId) (f : Axis → Axis) (s : State) : (modifyAxis a f s).link = s.link := rfl
@[simp] theorem modifyAxis_stations (a : AxisId) (f : Axis → Axis) (s : State) : (modifyAxis a f s).stations = s.stations := rfl
@[simp] theorem modifyAxis_points (a : AxisId) (f : Axis → Axis) (s : State) : (modifyAxis a f s).points = s.points := rfl
@[simp] theorem modifyAxis_pointMap (a : AxisId) (f : Axis → Axis) (s : State) : (modifyAxis a f s).pointMap = s.pointMap := rfl
@[simp] theorem modifyAxis_events (a : AxisId) (f : Axis → Axis) (s : State) : (modifyAxis a f s).events = s.events := rfl
@[simp] theorem modifyAxis_rules (a : AxisId) (f : Axis → Axis) (s : State) : (modifyAxis a f s).rules = s.rules := rfl
@[simp] theorem modifyAxis_hold (a : AxisId) (f : Axis → Axis) (s : State) : (modifyAxis a f s).hold = s.hold := rfl
@[simp] theorem modifyAxis_partner (a : AxisId) (f : Axis → Axis) (s : State) : (modifyAxis a f s).partner = s.partner := rfl
@[simp] theorem modifyAxis_doors (a : AxisId) (f : Axis → Axis) (s : State) : (modifyAxis a f s).doors = s.doors := rfl
@[simp] theorem modifyAxis_zones (a : AxisId) (f : Axis → Axis) (s : State) : (modifyAxis a f s).zones = s.zones := rfl
@[simp] theorem modifyAxis_programs (a : AxisId) (f : Axis → Axis) (s : State) : (modifyAxis a f s).programs = s.programs := rfl
@[simp] theorem modifyAxis_templates (a : AxisId) (f : Axis → Axis) (s : State) : (modifyAxis a f s).templates = s.templates := rfl
@[simp] theorem modifyAxis_audioZones (a : AxisId) (f : Axis → Axis) (s : State) : (modifyAxis a f s).audioZones = s.audioZones := rfl
@[simp] theorem modifyAxis_calls (a : AxisId) (f : Axis → Axis) (s : State) : (modifyAxis a f s).calls = s.calls := rfl
@[simp] theorem modifyAxis_lastNumber (a : AxisId) (f : Axis → Axis) (s : State) : (modifyAxis a f s).lastNumber = s.lastNumber := rfl
@[simp] theorem modifyAxis_manage (a : AxisId) (f : Axis → Axis) (s : State) : (modifyAxis a f s).manage = s.manage := rfl
@[simp] theorem modifyAxis_staging (a : AxisId) (f : Axis → Axis) (s : State) : (modifyAxis a f s).staging = s.staging := rfl
@[simp] theorem modifyAxis_reports (a : AxisId) (f : Axis → Axis) (s : State) : (modifyAxis a f s).reports = s.reports := rfl
@[simp] theorem modifyAxis_overflow (a : AxisId) (f : Axis → Axis) (s : State) : (modifyAxis a f s).overflow = s.overflow := rfl
@[simp] theorem modifyAxis_rebuilding (a : AxisId) (f : Axis → Axis) (s : State) : (modifyAxis a f s).rebuilding = s.rebuilding := rfl
@[simp] theorem modifyAxis_mode (a : AxisId) (f : Axis → Axis) (s : State) : (modifyAxis a f s).mode = s.mode := rfl
@[simp] theorem modifyAxis_classes (a : AxisId) (f : Axis → Axis) (s : State) : (modifyAxis a f s).classes = s.classes := rfl
@[simp] theorem modifyAxis_responses (a : AxisId) (f : Axis → Axis) (s : State) : (modifyAxis a f s).responses = s.responses := rfl
@[simp] theorem modifyAxis_settings (a : AxisId) (f : Axis → Axis) (s : State) : (modifyAxis a f s).settings = s.settings := rfl
@[simp] theorem modifyAxis_pending (a : AxisId) (f : Axis → Axis) (s : State) : (modifyAxis a f s).pending = s.pending := rfl

@[simp] theorem setDoor_doors (d : Nat) (x : Door) (s : State) :
    (setDoor d x s).doors = Tab.set s.doors d x := rfl
@[simp] theorem setZone_zones (z : Nat) (x : Zone) (s : State) :
    (setZone z x s).zones = Tab.set s.zones z x := rfl
@[simp] theorem announceRoom_zones (s : State) :
    (announceRoom s).zones = s.zones.map (fun e => (e.1, { e.2 with wait := e.2.wait.tell })) := rfl

@[simp] theorem getAxis_setAxis_same (a : AxisId) (x : Axis) (s : State) :
    getAxis (setAxis a x s) a = x := by
  simp [getAxis, setAxis]

theorem getAxis_setAxis (a b : AxisId) (x : Axis) (s : State) :
    getAxis (setAxis a x s) b = if b = a then x else getAxis s b := by
  by_cases h : b = a
  · subst h; simp
  · have hv : ¬ a.val = b.val := fun e => h (Fin.ext e.symm)
    simp [getAxis, setAxis, h, hv]

theorem getAxis_setAxis_other (a b : AxisId) (x : Axis) (s : State) (h : b ≠ a) :
    getAxis (setAxis a x s) b = getAxis s b := by
  simp [getAxis_setAxis, h]

theorem getAxis_modifyAxis (a b : AxisId) (f : Axis → Axis) (s : State) :
    getAxis (modifyAxis a f s) b = if b = a then f (getAxis s a) else getAxis s b := by
  simp [modifyAxis, getAxis_setAxis]

@[simp] theorem setAxis_setAxis (a : AxisId) (x y : Axis) (s : State) :
    setAxis a y (setAxis a x s) = setAxis a y s := by
  simp [setAxis]

@[simp] theorem getClass_setClass_same (c : FaultClass) (x : ClassState) (s : State) :
    getClass (setClass c x s) c = x := by
  simp [getClass, setClass]

theorem bit_injective {c d : FaultClass} (h : c.bit = d.bit) : c = d := by
  cases c <;> cases d <;> first | rfl | exact absurd h (by decide)

theorem getClass_setClass (c d : FaultClass) (x : ClassState) (s : State) :
    getClass (setClass c x s) d = if d = c then x else getClass s d := by
  by_cases h : d = c
  · subst h; simp
  · have hv : ¬ c.bit.val = d.bit.val := fun e => h (bit_injective (Fin.ext e.symm))
    simp [getClass, setClass, h, hv]

theorem getStation_putStation (n m : Nat) (x : Station) (s : State) :
    getStation (putStation n x s) m = if m = n then x else getStation s m := by
  unfold getStation putStation
  dsimp only
  split_ifs with hx hm hm
  · subst hm; simp [Tab.get?_erase, hx]
  · simp [Tab.get?_erase, hm]
  · subst hm; simp
  · simp [Tab.get?_set, hm]

theorem setErrors_keeps (p : Port) (n : Nat) (made : Bool) (s : State) :
    setErrors p n made s = { s with link := (setErrors p n made s).link } := by
  cases p <;> rfl

end Sys2Proof.Machine
end

