-- ==== Sys2Proof/Laws/Keeps.lean ====
section
/-! SUPPORT. What every operation inside the part keeps: the tables, the manage queue, the waiting
commands, the field points, the counters of the axes, the capacities, the canonical form and the ownership
of the audio zones. Each block's operations are shown to keep all of it in the files that follow. -/

namespace Sys2Proof.Machine

open Sys2Proof

/-- What no operation inside a block changes. -/
structure Frozen where
  stations : Tab Station
  pointMap : Tab MapEntry
  rules : Tab Rule
  programs : Tab (List ProgStep)
  templates : Tab Template
  audioZones : Tab AudioZone
  manage : List Request
  staging : Option Staging
  responses : Vector Response 8
  settings : Settings
  pending : List Instr
  errB : Nat
  errD : Nat
  madeB : Bool
  madeD : Bool
  rebuilds : Bool

def frozenOf (s : State) : Frozen :=
  ⟨s.stations, s.pointMap, s.rules, s.programs, s.templates, s.audioZones, s.manage, s.staging,
   s.responses, s.settings, s.pending, s.link.errB, s.link.errD, s.link.madeB, s.link.madeD,
   s.rebuilding.isSome⟩

/-- What only its own update, its record's writes and CLEAR_TRAVEL change in an axis. -/
structure AxisCounters where
  cfg : Option AxisCfg
  fp : Int
  encA : Bool
  encB : Bool
  inputs : LocalInputs
  travel : BitVec 32

def countersOf (x : Axis) : AxisCounters := ⟨x.cfg, x.fp, x.encA, x.encB, x.inputs, x.travel⟩

/-- Two states that differ only in what the blocks work with. -/
structure Keeps (s t : State) : Prop where
  frozen : frozenOf t = frozenOf s
  points : ∀ n, n ≤ 511 → getPoint t n = getPoint s n
  counters : ∀ a : AxisId, countersOf (getAxis t a) = countersOf (getAxis s a)
  doors : ∀ d, (Tab.get? t.doors d).map (·.cfg) = (Tab.get? s.doors d).map (·.cfg)
  zones : ∀ z, (Tab.get? t.zones z).map (·.cfg) = (Tab.get? s.zones z).map (·.cfg)
  bounded : Bounded s → Bounded t
  canonical : Canonical s → Canonical t
  held : s.hold = [] → t.hold = []

/-- As `Keeps`, with the ownership of the audio zones kept. -/
structure KeepsAll (s t : State) : Prop extends Keeps s t where
  owned : Owned s → Owned t

theorem Keeps.refl (s : State) : Keeps s s :=
  ⟨rfl, fun _ _ => rfl, fun _ => rfl, fun _ => rfl, fun _ => rfl, id, id, id⟩

theorem Keeps.trans {s t u : State} (h : Keeps s t) (g : Keeps t u) : Keeps s u :=
  ⟨g.frozen.trans h.frozen, fun n hn => (g.points n hn).trans (h.points n hn),
   fun a => (g.counters a).trans (h.counters a), fun d => (g.doors d).trans (h.doors d),
   fun z => (g.zones z).trans (h.zones z), fun b => g.bounded (h.bounded b),
   fun c => g.canonical (h.canonical c),
   fun a => g.held (h.held a)⟩

theorem KeepsAll.refl (s : State) : KeepsAll s s := ⟨Keeps.refl s, id⟩

theorem KeepsAll.trans {s t u : State} (h : KeepsAll s t) (g : KeepsAll t u) : KeepsAll s u :=
  ⟨h.toKeeps.trans g.toKeeps, fun o => g.owned (h.owned o)⟩

/-- Either branch of a choice keeps. -/
theorem KeepsAll.ite {p : Prop} [Decidable p] {s t u : State} (h : KeepsAll s t) (g : KeepsAll s u) :
    KeepsAll s (if p then t else u) := by
  split
  · exact h
  · exact g

/-- A fold of operations that each keep. -/
theorem KeepsAll.foldl {α : Type} {f : State → α → State} (h : ∀ t x, KeepsAll t (f t x)) (l : List α)
    (s : State) : KeepsAll s (l.foldl f s) := by
  induction l generalizing s with
  | nil => exact KeepsAll.refl s
  | cons x l ih => exact (h s x).trans (ih (f s x))

/-- A fold of operations that each keep, with a second result beside the state. -/
theorem KeepsAll.foldl_pair {α β : Type} {f : State × β → α → State × β}
    (h : ∀ t x, KeepsAll t.1 (f t x).1) (l : List α) (s : State × β) :
    KeepsAll s.1 (l.foldl f s).1 := by
  induction l generalizing s with
  | nil => exact KeepsAll.refl s.1
  | cons x l ih => exact (h s x).trans (ih (f s x))

/-! ## Primitive updates -/

/-- An update of the ports and queues. -/
theorem keepsAll_link (s : State) (l : Link) (he : (l.errB, l.errD, l.madeB, l.madeD) =
      (s.link.errB, s.link.errD, s.link.madeB, s.link.madeD))
    (hb : Bounded s → l.safety.length ≤ 8 ∧ l.voice.length ≤ 4 ∧ l.forward.length ≤ 16 ∧
      l.dToB.length ≤ 16) : KeepsAll s { s with link := l } where
  frozen := by simp only [Prod.mk.injEq] at he; simp [frozenOf, he]
  points := fun _ _ => rfl
  counters := fun _ => rfl
  doors := fun _ => rfl
  zones := fun _ => rfl
  bounded := fun b =>
    { b with safety := (hb b).1, voice := (hb b).2.1, forward := (hb b).2.2.1, dToB := (hb b).2.2.2 }
  canonical := fun c => { c with }
  held := id
  owned := id

/-- An update of the report queue. -/
theorem keepsAll_reports (s : State) (r : List Report) (o : Bool)
    (hb : Bounded s → r.length ≤ 32) : KeepsAll s { s with reports := r, overflow := o } where
  frozen := rfl
  points := fun _ _ => rfl
  counters := fun _ => rfl
  doors := fun _ => rfl
  zones := fun _ => rfl
  bounded := fun b => { b with reports := hb b }
  canonical := fun c => { c with }
  held := id
  owned := id

/-- A report held while the blocks rebuild. -/
theorem keepsAll_rebuilding (s : State) (h r : List Report) (hs : s.rebuilding = some h) :
    KeepsAll s { s with rebuilding := some r } where
  frozen := by simp [frozenOf, hs]
  points := fun _ _ => rfl
  counters := fun _ => rfl
  doors := fun _ => rfl
  zones := fun _ => rfl
  bounded := fun b => { b with }
  canonical := fun c => { c with }
  held := id
  owned := id

/-- An update of the hold queue. -/
theorem keepsAll_hold (s : State) (l : List HoldEntry) (hb : Bounded s → l.length ≤ 8)
    (hh : s.hold = [] → l = []) : KeepsAll s { s with hold := l } where
  frozen := rfl
  points := fun _ _ => rfl
  counters := fun _ => rfl
  doors := fun _ => rfl
  zones := fun _ => rfl
  bounded := fun b => { b with hold := hb b }
  canonical := fun c => { c with }
  held := hh
  owned := id

/-- An update of mode, classes, partner announcements or the last number. -/
theorem keepsAll_control (s : State) (m : Mode) (cs : Vector ClassState 8) (ps : List PartnerMsg)
    (n : Nat) (es : List (List Nat)) :
    KeepsAll s { s with mode := m, classes := cs, partner := ps, lastNumber := n, events := es } where
  frozen := rfl
  points := fun _ _ => rfl
  counters := fun _ => rfl
  doors := fun _ => rfl
  zones := fun _ => rfl
  bounded := fun b => { b with }
  canonical := fun c => { c with }
  held := id
  owned := id

/-- An update of the point image above the field points. -/
theorem keepsAll_points (s : State) (t : Tab Point) (es : List (List Nat))
    (hf : ∀ n, n ≤ 511 → (Tab.get? t n).getD {} = (Tab.get? s.points n).getD {})
    (hs : Tab.Sorted s.points = true → Tab.Sorted t = true)
    (hl : (∀ e ∈ s.points, e.2 ≠ {}) → ∀ e ∈ t, e.2 ≠ {}) :
    KeepsAll s { s with points := t, events := es } where
  frozen := rfl
  points := hf
  counters := fun _ => rfl
  doors := fun _ => rfl
  zones := fun _ => rfl
  bounded := fun b => { b with }
  canonical := fun c => { c with points := hs c.points, pointsListed := hl c.pointsListed }
  held := id
  owned := id

/-- An update of one axis that keeps its counters and does not lengthen its move list. -/
theorem keepsAll_setAxis (a : AxisId) (x : Axis) (s : State)
    (hc : countersOf x = countersOf (getAxis s a))
    (hp : x.pending.length ≤ (getAxis s a).pending.length) : KeepsAll s (setAxis a x s) where
  frozen := rfl
  points := fun _ _ => rfl
  counters := by
    intro b
    rw [getAxis_setAxis]
    split_ifs with h
    · subst h; exact hc
    · rfl
  doors := fun _ => rfl
  zones := fun _ => rfl
  bounded := by
    intro b
    have hm : ∀ c : AxisId, (getAxis (setAxis a x s) c).pending.length ≤ 2 := by
      intro c
      rw [getAxis_setAxis]
      split_ifs with h
      · subst h; exact hp.trans (b.moves c)
      · exact b.moves c
    exact { b with moves := hm }
  canonical := fun c => { c with }
  held := id
  owned := id

/-- An update of one door that keeps its record. -/
theorem keepsAll_setDoor (d : Nat) (x y : Door) (s : State) (hd : Tab.get? s.doors d = some x)
    (hc : y.cfg = x.cfg) : KeepsAll s (setDoor d y s) where
  frozen := rfl
  points := fun _ _ => rfl
  counters := fun _ => rfl
  doors := by
    intro e
    simp only [setDoor_doors, Tab.get?_set]
    split_ifs with h
    · subst h; simp [hd, hc]
    · rfl
  zones := fun _ => rfl
  bounded := fun b => { b with }
  canonical := fun c => { c with doors := Tab.sorted_set _ _ _ c.doors }
  held := id
  owned := id

/-- An update of one zone that keeps its record. -/
theorem keepsAll_setZone (z : Nat) (w v : Zone) (s : State) (hz : Tab.get? s.zones z = some w)
    (hc : v.cfg = w.cfg) : KeepsAll s (setZone z v s) where
  frozen := rfl
  points := fun _ _ => rfl
  counters := fun _ => rfl
  doors := fun _ => rfl
  zones := by
    intro e
    simp only [setZone_zones, Tab.get?_set]
    split_ifs with h
    · subst h; simp [hz, hc]
    · rfl
  bounded := fun b => { b with }
  canonical := fun c => { c with zones := Tab.sorted_set _ _ _ c.zones }
  held := id
  owned := id

/-- An update of every zone that keeps the records. -/
theorem keepsAll_mapZones (g : Zone → Zone) (s : State) (hc : ∀ w, (g w).cfg = w.cfg) :
    KeepsAll s { s with zones := s.zones.map (fun e => (e.1, g e.2)) } where
  frozen := rfl
  points := fun _ _ => rfl
  counters := fun _ => rfl
  doors := fun _ => rfl
  zones := by
    intro z
    rw [Tab.get?_map s.zones (fun _ => g) z]
    cases Tab.get? s.zones z <;> simp [hc]
  bounded := fun b => { b with }
  canonical := fun c => { c with zones := Tab.sorted_map _ (fun e => g e.2) c.zones }
  held := id
  owned := id

/-- An update of the call list that keeps to its room; ownership is another matter. -/
theorem keeps_calls (s : State) (cs : List Call) (n : Nat) (hb : Bounded s → cs.length ≤ 16) :
    Keeps s { s with calls := cs, lastNumber := n } where
  frozen := rfl
  points := fun _ _ => rfl
  counters := fun _ => rfl
  doors := fun _ => rfl
  zones := fun _ => rfl
  bounded := fun b => { b with calls := hb b }
  canonical := fun c => { c with }
  held := id

/-! ## Reports and transmit queues -/

theorem keepsAll_sendReport (r : Report) (s : State) : KeepsAll s (sendReport r s) :=
  (keepsAll_link s { s.link with bTx := some (reportFrame s r), turn := .forward } rfl
    (fun b => ⟨b.safety, b.voice, b.forward, b.dToB⟩)).trans
    (keepsAll_reports _ s.reports false (fun b => b.reports))

theorem keepsAll_takeReport (s : State) : KeepsAll s (takeReport s) := by
  unfold takeReport
  split
  · rename_i r rest h
    refine (keepsAll_reports s rest s.overflow (fun b => ?_)).trans (keepsAll_sendReport r _)
    have := b.reports; rw [h] at this; simp at this; omega
  · exact KeepsAll.refl s

theorem keepsAll_takeForwarded (s : State) : KeepsAll s (takeForwarded s) := by
  unfold takeForwarded
  split
  · rename_i f rest h
    refine keepsAll_link s _ rfl (fun b => ⟨b.safety, b.voice, b.forward, ?_⟩)
    have := b.dToB; rw [h] at this; simp at this; show rest.length ≤ 16; omega
  · exact KeepsAll.refl s

/-- R15: the choice of the B-port transmitter. -/
theorem keepsAll_kickB (s : State) : KeepsAll s (kickB s) := by
  unfold kickB
  split
  · exact KeepsAll.refl s
  · split
    · rename_i r rest h
      refine (keepsAll_reports s rest s.overflow (fun b => ?_)).trans (keepsAll_sendReport r _)
      have := b.reports; have := takeFirst_length h; omega
    · split
      · split
        · exact keepsAll_takeForwarded s
        · exact keepsAll_takeReport s
      · split
        · exact keepsAll_takeReport s
        · exact keepsAll_takeForwarded s

/-- R172: the admission of a report. -/
theorem keepsAll_admitReport (r : Report) (s : State) : KeepsAll s (admitReport r s) := by
  unfold admitReport
  split
  · rename_i h
    exact keepsAll_reports s _ s.overflow (fun _ => by simp [Config.reportCap] at h ⊢; omega)
  · split
    · exact keepsAll_reports s s.reports true (fun b => b.reports)
    · split
      · rename_i h
        refine keepsAll_reports s _ true (fun b => ?_)
        have := takeFirst_length h; have := b.reports; simp; omega
      · exact keepsAll_reports s s.reports true (fun b => b.reports)

/-- Making a report. -/
theorem keepsAll_offerReport (r : Report) (s : State) : KeepsAll s (offerReport r s) := by
  unfold offerReport
  split
  · rename_i held h
    exact keepsAll_rebuilding s held _ h
  · exact (keepsAll_admitReport r s).trans (keepsAll_kickB _)

theorem keepsAll_routine (b : ReportBody) (s : State) : KeepsAll s (routine b s) :=
  keepsAll_offerReport _ s

theorem keepsAll_alarm (b : ReportBody) (s : State) : KeepsAll s (alarm b s) :=
  keepsAll_offerReport _ s

/-- R16: an offer to the D-to-B forward queue. -/
theorem keepsAll_offerDToB (f : Frame) (s : State) : KeepsAll s (offerDToB f s) := by
  unfold offerDToB
  split
  · rename_i h
    refine (keepsAll_link s _ ?_ ?_).trans (keepsAll_kickB _)
    · rfl
    intro b
    refine ⟨b.safety, b.voice, b.forward, ?_⟩
    simp [Config.dToBCap] at h ⊢; omega
  · split
    · rename_i h
      refine (keepsAll_link s _ ?_ ?_).trans (keepsAll_kickB _)
      · rfl
      intro b
      refine ⟨b.safety, b.voice, b.forward, ?_⟩
      have := takeFirst_length h; have := b.dToB; simp; omega
    · exact KeepsAll.refl s

theorem stepWait_tell_keeps (w : Zone) : ({ w with wait := w.wait.tell } : Zone).cfg = w.cfg := rfl

theorem keepsAll_announceRoom (s : State) : KeepsAll s (announceRoom s) :=
  keepsAll_mapZones (fun w => { w with wait := w.wait.tell }) s (fun _ => rfl)

/-- R11: the choice of the D-port transmitter. -/
theorem keepsAll_kickD (s : State) : KeepsAll s (kickD s) := by
  unfold kickD
  split
  · exact KeepsAll.refl s
  · split
    · rename_i f rest h
      refine (keepsAll_link s _ ?_ ?_).trans (keepsAll_announceRoom _)
      · rfl
      intro b
      refine ⟨?_, b.voice, b.forward, b.dToB⟩
      have := b.safety; rw [h] at this; simp at this; show rest.length ≤ 8; omega
    · split
      · rename_i f rest h
        refine keepsAll_link s _ rfl (fun b => ⟨b.safety, ?_, b.forward, b.dToB⟩)
        have := b.voice; rw [h] at this; simp at this; show rest.length ≤ 4; omega
      · split
        · rename_i f rest h
          refine keepsAll_link s _ rfl (fun b => ⟨b.safety, b.voice, ?_, b.dToB⟩)
          have := b.forward; rw [h] at this; simp at this; show rest.length ≤ 16; omega
        · exact KeepsAll.refl s

/-- R13: an offer to the safety queue. -/
theorem keepsAll_offerSafety (f : Frame) (s : State) : KeepsAll s (offerSafety f s).1 := by
  unfold offerSafety
  split
  · rename_i h
    refine (keepsAll_link s _ ?_ ?_).trans (keepsAll_kickD _)
    · rfl
    intro b
    refine ⟨?_, b.voice, b.forward, b.dToB⟩
    simp [Config.safetyCap] at h ⊢; omega
  · exact KeepsAll.refl s

/-- R14: an offer to the voice queue. -/
theorem keepsAll_offerVoice (f : Frame) (s : State) : KeepsAll s (offerVoice f s) := by
  unfold offerVoice
  split
  · rename_i h
    refine (keepsAll_link s _ ?_ ?_).trans (keepsAll_kickD _)
    · rfl
    intro b
    refine ⟨b.safety, ?_, b.forward, b.dToB⟩
    simp [Config.voiceCap] at h ⊢; omega
  · exact KeepsAll.refl s

/-- R12: the offer of a passed order to the forward queue. -/
theorem keepsAll_offerOrder (f : Frame) (s : State) : KeepsAll s (offerOrder f s).1 := by
  unfold offerOrder
  split
  · rename_i h
    refine (keepsAll_link s _ ?_ ?_).trans (keepsAll_kickD _)
    · rfl
    intro b
    refine ⟨b.safety, b.voice, ?_, b.dToB⟩
    simp [Config.forwardCap] at h ⊢; omega
  · exact KeepsAll.refl s

/-- R12: the offer of another frame to the forward queue. -/
theorem keepsAll_offerForward (f : Frame) (s : State) : KeepsAll s (offerForward f s) := by
  unfold offerForward
  split
  · rename_i h
    refine (keepsAll_link s _ ?_ ?_).trans (keepsAll_kickD _)
    · rfl
    intro b
    refine ⟨b.safety, b.voice, ?_, b.dToB⟩
    simp [Config.forwardCap] at h ⊢; omega
  · split
    · rename_i h
      refine (keepsAll_link s _ ?_ ?_).trans (keepsAll_kickD _)
      · rfl
      intro b
      refine ⟨b.safety, b.voice, ?_, b.dToB⟩
      have := takeFirst_length h; have := b.forward; simp; omega
    · exact KeepsAll.refl s

theorem keepsAll_forwardFrame (p : Port) (f : Frame) (s : State) :
    KeepsAll s (forwardFrame p f s) := by
  cases p
  · exact keepsAll_offerForward f s
  · exact keepsAll_offerDToB f s

/-! ## The point image -/

/-- Setting points of a list leaves every other point as it reads. -/
theorem getD_foldl_putPoint {α : Type} (key : α → Nat) (val : α → Point) (l : List α) (t : Tab Point)
    (n : Nat) (h : ∀ x ∈ l, key x ≠ n) :
    (Tab.get? (l.foldl (fun t x => putPoint t (key x) (val x)) t) n).getD {} =
      (Tab.get? t n).getD {} := by
  induction l generalizing t with
  | nil => rfl
  | cons x l ih =>
    rw [List.foldl_cons, ih _ (fun y hy => h y (List.mem_cons_of_mem _ hy)), getD_putPoint,
      if_neg (fun e => h x List.mem_cons_self e.symm)]

theorem sorted_foldl_putPoint {α : Type} (key : α → Nat) (val : α → Point) (l : List α) (t : Tab Point)
    (h : Tab.Sorted t = true) :
    Tab.Sorted (l.foldl (fun t x => putPoint t (key x) (val x)) t) = true := by
  induction l generalizing t with
  | nil => exact h
  | cons x l ih => exact ih _ (sorted_putPoint t _ _ h)

theorem listed_foldl_putPoint {α : Type} (key : α → Nat) (val : α → Point) (l : List α) (t : Tab Point)
    (h : ∀ e ∈ t, e.2 ≠ {}) :
    ∀ e ∈ l.foldl (fun t x => putPoint t (key x) (val x)) t, e.2 ≠ {} := by
  induction l generalizing t with
  | nil => exact h
  | cons x l ih => exact ih _ (listed_putPoint t _ _ h)

/-- R23: what setting the image can do. -/
theorem setImage_cases (new : Tab Point) (touched : List Nat) (s : State) :
    ∃ es, setImage new touched s = { s with points := new, events := es } := by
  unfold setImage
  dsimp only
  split
  · exact ⟨s.events, rfl⟩
  · exact ⟨_, rfl⟩

theorem keepsAll_setImage_foldl {α : Type} (key : α → Nat) (val : α → Point) (l : List α)
    (touched : List Nat) (s : State) (h : ∀ x ∈ l, 512 ≤ key x) :
    KeepsAll s (setImage (l.foldl (fun t x => putPoint t (key x) (val x)) s.points) touched s) := by
  obtain ⟨es, he⟩ := setImage_cases (l.foldl (fun t x => putPoint t (key x) (val x)) s.points) touched s
  rw [he]
  refine keepsAll_points s _ es ?_ ?_ ?_
  · intro n hn
    exact getD_foldl_putPoint key val l s.points n (fun x hx e => by have := h x hx; omega)
  · exact fun hs => sorted_foldl_putPoint key val l s.points hs
  · exact fun hl => listed_foldl_putPoint key val l s.points hl

/-- R32: an owner's write to internal points. -/
theorem keepsAll_writePoints (ws : List (Nat × Nat)) (s : State) (h : ∀ w ∈ ws, 512 ≤ w.1) :
    KeepsAll s (writePoints ws s) :=
  keepsAll_setImage_foldl (fun w : Nat × Nat => w.1) (fun w => ⟨BitVec.ofNat 16 w.2, .fresh, 0⟩) _ _ s
    (fun w hw => h w (List.mem_of_mem_filter hw))

theorem keepsAll_clearPoints (ns : List Nat) (s : State) (h : ∀ n ∈ ns, 512 ≤ n) :
    KeepsAll s (clearPoints ns s) :=
  keepsAll_setImage_foldl (fun n : Nat => n) (fun _ => {}) ns ns s h

end Sys2Proof.Machine
end

