-- ==== Sys2Proof/Laws/KeepsCalls.lean ====
section
/-! SUPPORT. The calling unit's operations: ownership after a recompute, and what each operation keeps. -/

namespace Sys2Proof.Machine

open Sys2Proof

/-! ## What leaves the call list as it is -/

@[simp] theorem kickB_calls (s : State) : (kickB s).calls = s.calls := by
  unfold kickB takeReport takeForwarded
  repeat (first | rfl | split)

@[simp] theorem admitReport_calls (r : Report) (s : State) : (admitReport r s).calls = s.calls := by
  unfold admitReport
  repeat (first | rfl | split)

@[simp] theorem offerReport_calls (r : Report) (s : State) : (offerReport r s).calls = s.calls := by
  unfold offerReport
  split
  · rfl
  · simp

@[simp] theorem callReport_calls (c : Call) (e : CallEvent) (o : ZoneSet) (s : State) :
    (callReport c e o s).calls = s.calls := offerReport_calls _ s

@[simp] theorem writePoints_calls (ws : List (Nat × Nat)) (s : State) :
    (writePoints ws s).calls = s.calls := by
  unfold writePoints
  obtain ⟨es, he⟩ := setImage_cases ((ws.filter (fun w =>
    decide ((getPoint s w.1).quality = .never) ||
      decide ((getPoint s w.1).value ≠ BitVec.ofNat 16 w.2))).foldl
    (fun t w => putPoint t w.1 ⟨BitVec.ofNat 16 w.2, .fresh, 0⟩) s.points)
    ((ws.filter (fun w => decide ((getPoint s w.1).quality = .never) ||
      decide ((getPoint s w.1).value ≠ BitVec.ofNat 16 w.2))).map (·.1)) s
  simp only at he ⊢
  rw [he]

@[simp] theorem publishOwners_calls (s : State) : (publishOwners s).calls = s.calls := by
  unfold publishOwners
  split
  · rfl
  · exact writePoints_calls _ s

theorem foldl_calls {α : Type} {f : State → α → State} (h : ∀ t x, (f t x).calls = t.calls)
    (l : List α) (s : State) : (l.foldl f s).calls = s.calls := by
  induction l generalizing s with
  | nil => rfl
  | cons x l ih => rw [List.foldl_cons, ih, h]

/-! ## Ownership -/

/-- Two calls that ask for the same with the same priority. -/
def SameAsk (c d : Call) : Prop := d.requested = c.requested ∧ d.priority = c.priority

theorem requestedUnion_congr {cs ds : List Call} (p : Nat → Bool) (h : List.Forall₂ SameAsk cs ds) :
    requestedUnion (cs.filter (fun c => p c.priority)) =
      requestedUnion (ds.filter (fun c => p c.priority)) := by
  unfold requestedUnion
  generalize (0 : ZoneSet) = acc
  induction h generalizing acc with
  | nil => rfl
  | cons hcd _ ih =>
    rename_i c d cs ds _
    simp only [List.filter_cons, hcd.2]
    split
    · simp only [List.foldl_cons, hcd.1]; exact ih _
    · exact ih _

theorem ownedBy_congr {bs cs : List Call} {c d : Call} {as es : List Call}
    (hb : List.Forall₂ SameAsk bs cs) (h : SameAsk c d) (ha : List.Forall₂ SameAsk as es) :
    ownedBy bs c as = ownedBy cs d es := by
  unfold ownedBy
  rw [h.1, h.2]
  rw [requestedUnion_congr (fun q => decide (q ≤ c.priority)) hb,
    requestedUnion_congr (fun q => decide (q < c.priority)) ha]

theorem assignOwners_sameAsk (bs cs : List Call) :
    List.Forall₂ SameAsk cs (assignOwners bs cs) := by
  induction cs generalizing bs with
  | nil => exact .nil
  | cons c cs ih => exact .cons ⟨rfl, rfl⟩ (ih _)

theorem sameAsk_trans {cs ds es : List Call} (h : List.Forall₂ SameAsk cs ds)
    (g : List.Forall₂ SameAsk ds es) : List.Forall₂ SameAsk cs es := by
  induction h generalizing es with
  | nil => exact g
  | cons hcd _ ih =>
    cases g with
    | cons hde gs => exact .cons ⟨hde.1.trans hcd.1, hde.2.trans hcd.2⟩ (ih gs)

theorem sameAsk_append {bs cs : List Call} {c d : Call} (h : List.Forall₂ SameAsk bs cs)
    (g : SameAsk c d) : List.Forall₂ SameAsk (bs ++ [c]) (cs ++ [d]) :=
  List.rel_append h (.cons g .nil)

/-- A list whose calls ask and own as assigned is assigned to itself. -/
theorem assignOwners_fix {bs bs' : List Call} {cs ds : List Call}
    (hb : List.Forall₂ SameAsk bs bs')
    (h : List.Forall₂ (fun o d => SameAsk o d ∧ d.owned = o.owned) (assignOwners bs cs) ds) :
    assignOwners bs' ds = ds := by
  induction cs generalizing bs bs' ds with
  | nil => cases h; rfl
  | cons c cs ih =>
    cases h with
    | cons hcd hs =>
      rename_i d ds
      obtain ⟨hask, hown⟩ := hcd
      have hask' : SameAsk c d := hask
      have hrest : List.Forall₂ SameAsk cs ds :=
        sameAsk_trans (assignOwners_sameAsk _ _) (hs.imp fun _ _ e => e.1)
      have hfix := ih (sameAsk_append hb hask') hs
      have how : ownedBy bs' d ds = d.owned := by
        rw [hown, ← ownedBy_congr hb hask' hrest]
      show { d with owned := ownedBy bs' d ds } :: assignOwners (bs' ++ [d]) ds = d :: ds
      rw [how, hfix]

theorem sameAsk_refl (cs : List Call) : List.Forall₂ SameAsk cs cs := by
  induction cs with
  | nil => exact .nil
  | cons c cs ih => exact .cons ⟨rfl, rfl⟩ ih

/-- Changing calls without touching what they ask and own keeps the ownership. -/
theorem owned_map {cs : List Call} (f : Call → Call) (h : assignOwners [] cs = cs)
    (hf : ∀ c, SameAsk c (f c) ∧ (f c).owned = c.owned) :
    assignOwners [] (cs.map f) = cs.map f := by
  refine assignOwners_fix (cs := cs) .nil ?_
  rw [h]
  exact List.forall₂_map_right_iff.2 (List.forall₂_same.2 (fun c _ => hf c))

theorem afterOwned_keeps (c : Call) :
    SameAsk c c.afterOwned.1 ∧ c.afterOwned.1.owned = c.owned := by
  unfold Call.afterOwned Call.goLive SameAsk
  repeat (first | exact ⟨⟨rfl, rfl⟩, rfl⟩ | split)

theorem recomputed_keeps (old : ZoneSet) (c : Call) :
    SameAsk c (c.recomputed old).1 ∧ (c.recomputed old).1.owned = c.owned := by
  unfold Call.recomputed
  split
  · exact ⟨⟨rfl, rfl⟩, rfl⟩
  · exact afterOwned_keeps c

theorem assignOwners_length (bs cs : List Call) : (assignOwners bs cs).length = cs.length := by
  rw [(assignOwners_sameAsk bs cs).length_eq]

/-- The calls after a recompute. -/
theorem recompute_calls (s : State) : (recompute s).calls =
    (List.zipWith (fun o c => Call.recomputed o.owned c) s.calls (assignOwners [] s.calls)).map
      (·.1) := by
  unfold recompute
  refine foldl_calls ?_ _ _
  intro t r
  cases r.2 <;> simp

theorem forall₂_zipWith (f : Call → Call → Call)
    (hf : ∀ o c, SameAsk c (f o c) ∧ (f o c).owned = c.owned) (os cs : List Call)
    (h : os.length = cs.length) :
    List.Forall₂ (fun o d => SameAsk o d ∧ d.owned = o.owned) cs (List.zipWith f os cs) := by
  induction os generalizing cs with
  | nil => cases cs with
    | nil => exact .nil
    | cons c cs => simp at h
  | cons o os ih => cases cs with
    | nil => simp at h
    | cons c cs => exact .cons (hf o c) (ih cs (by simpa using h))

/-- R152: after a recompute every call owns what R152 gives it. -/
theorem owned_recompute (s : State) : Owned (recompute s) := by
  unfold Owned
  rw [recompute_calls, List.map_zipWith]
  refine assignOwners_fix (cs := s.calls) .nil ?_
  exact forall₂_zipWith (fun o c => (Call.recomputed o.owned c).1)
    (fun o c => recomputed_keeps o.owned c) _ _ (assignOwners_length _ _).symm

/-! ## What the operations keep -/

theorem keepsAll_callReport (c : Call) (e : CallEvent) (o : ZoneSet) (s : State) :
    KeepsAll s (callReport c e o s) := keepsAll_offerReport _ s

theorem ownerWrites_above (cs : List Call) : ∀ w ∈ ownerWrites cs, 512 ≤ w.1 := by
  intro w hw
  simp only [ownerWrites, List.mem_map, List.mem_range] at hw
  obtain ⟨n, _, rfl⟩ := hw
  simp only [Config.ownerPoint]; omega

theorem keepsAll_publishOwners (s : State) : KeepsAll s (publishOwners s) := by
  unfold publishOwners
  split
  · exact KeepsAll.refl s
  · exact keepsAll_writePoints _ s (ownerWrites_above _)

theorem keeps_recompute (s : State) : Keeps s (recompute s) := by
  unfold recompute
  have h1 : Keeps s { s with calls := assignOwners [] s.calls } :=
    keeps_calls s _ s.lastNumber (fun b => by rw [assignOwners_length]; exact b.calls)
  have h2 := (keepsAll_publishOwners { s with calls := assignOwners [] s.calls }).toKeeps
  have h3 : Keeps (publishOwners { s with calls := assignOwners [] s.calls })
      { publishOwners { s with calls := assignOwners [] s.calls } with
        calls := (List.zipWith (fun o c => Call.recomputed o.owned c) s.calls
          (assignOwners [] s.calls)).map (·.1) } := by
    refine keeps_calls _ _ _ (fun b => ?_)
    have := b.calls
    simp only [publishOwners_calls, assignOwners_length] at this
    simp [assignOwners_length, this]
  refine ((h1.trans h2).trans h3).trans (KeepsAll.foldl ?_ _ _).toKeeps
  intro t r
  cases r.2
  · exact KeepsAll.refl t
  · exact keepsAll_callReport _ _ _ t

theorem keepsAll_recompute (s : State) : KeepsAll s (recompute s) :=
  ⟨keeps_recompute s, fun _ => owned_recompute s⟩

/-- An update of the call list followed by a recompute. -/
theorem keepsAll_recompute_of {s t : State} (h : Keeps s t) : KeepsAll s (recompute t) :=
  ⟨h.trans (keeps_recompute t), fun _ => owned_recompute t⟩

theorem keeps_removeCall {p : Call → Bool} {s : State} {c : Call} {rest : List Call}
    (h : takeFirst p s.calls = some (c, rest)) : Keeps s { s with calls := rest } :=
  keeps_calls s rest s.lastNumber
    (fun b => by have := takeFirst_length h; have := b.calls; omega)

/-- R159: a call that meets a test ends. -/
theorem keepsAll_endFirst (p : Call → Bool) (why : EndReason) (s : State) :
    KeepsAll s (endFirst p why s) := by
  unfold endFirst
  split
  · rename_i c rest h
    exact keepsAll_recompute_of ((keeps_removeCall h).trans (keepsAll_callReport _ _ _ _).toKeeps)
  · exact KeepsAll.refl s

theorem keepsAll_endAll (p : Call → Bool) (why : EndReason) (s : State) :
    KeepsAll s (endAll p why s) :=
  KeepsAll.foldl (fun t _ => keepsAll_endFirst p why t) _ s

/-- A call joins after operations that keep, where the list they leave has room. -/
theorem keeps_joinCall {s u : State} (c : Call) (h : Keeps s u) (hb : Bounded s → u.calls.length < 16) :
    Keeps s (joinCall c u) := by
  have h1 : Keeps s { u with calls := u.calls ++ [c], lastNumber := c.number } :=
    { (h.trans (keeps_calls u u.calls c.number (fun b => b.calls))) with
      bounded := fun b => { h.bounded b with calls := by have := hb b; simp; omega }
      canonical := fun k => { h.canonical k with } }
  exact h1.trans (keepsAll_callReport _ _ _ _).toKeeps

theorem displaced_length {cs rest : List Call} {c : Call} (h : displaced cs = some (c, rest)) :
    cs.length = rest.length + 1 := by
  unfold displaced at h
  split at h
  · simp at h
  · split at h
    · rename_i hd
      simp only [Option.some.injEq, Prod.mk.injEq] at h
      obtain ⟨_, rfl⟩ := h
      have := takeFirst_length hd
      simpa using this
    · simp at h

theorem recompute_calls_length (s : State) : (recompute s).calls.length = s.calls.length := by
  rw [recompute_calls]
  simp [assignOwners_length]

/-- R151, R153: a request to start a call. -/
theorem keepsAll_startCall (t : Nat) (who : Starter) (override : Option ZoneSet) (s : State) :
    KeepsAll s (startCall t who override s).1 := by
  unfold startCall
  split
  · exact KeepsAll.refl s
  · dsimp only
    split
    · rename_i h
      exact keepsAll_recompute_of
        (keeps_joinCall _ (Keeps.refl s) (fun _ => by simpa [Config.callCap] using h))
    · split
      · split
        · rename_i c rest hd
          have h0 : Keeps s { s with calls := rest } :=
            keeps_calls s rest s.lastNumber
              (fun b => by have := displaced_length hd; have := b.calls; omega)
          have h1 := keepsAll_recompute_of
            (h0.trans (keepsAll_callReport c (.ended .displaced) 0 { s with calls := rest }).toKeeps)
          refine keepsAll_recompute_of (keeps_joinCall _ h1.toKeeps (fun b => ?_))
          have := displaced_length hd
          have := b.calls
          rw [recompute_calls_length, callReport_calls]
          show rest.length < 16
          omega
        · exact KeepsAll.refl s
      · exact KeepsAll.refl s

/-- R154. -/
theorem keepsAll_tellMoving (a : AxisId) (s : State) : KeepsAll s (tellMoving a s) := by
  unfold tellMoving
  split
  · exact KeepsAll.refl s
  · rename_i t _
    split
    · exact KeepsAll.refl s
    · have h := keepsAll_startCall t (.axis a) none s
      split
      · rename_i u hu
        rw [hu] at h
        split
        · exact h.trans (keepsAll_offerReport _ _)
        · exact h
      · rename_i u _ _ hu
        rw [hu] at h
        exact h

/-- R154. -/
theorem keepsAll_tellAtRest (a : AxisId) (s : State) : KeepsAll s (tellAtRest a s) :=
  keepsAll_endFirst _ _ s

/-- R156: the calls take one step and their frames are offered. -/
theorem keepsAll_produce (f : Call → Call × Option Frame) (s : State)
    (hf : ∀ c, SameAsk c (f c).1 ∧ (f c).1.owned = c.owned) : KeepsAll s (produce f s) := by
  have h1 : KeepsAll s { s with calls := s.calls.map (fun c => (f c).1) } :=
    ⟨keeps_calls s _ s.lastNumber (fun b => by simpa using b.calls), fun o => owned_map _ o hf⟩
  unfold produce
  dsimp only
  rw [List.map_map]
  refine h1.trans (KeepsAll.foldl ?_ _ _)
  intro t r
  cases r.2
  · exact KeepsAll.refl t
  · exact keepsAll_offerVoice _ t

theorem onVoice_keeps (s : State) (ch : Nat) (input : List Int) (c : Call) :
    SameAsk c (c.onVoice s ch input).1 ∧ (c.onVoice s ch input).1.owned = c.owned := by
  unfold Call.onVoice SameAsk
  split
  · dsimp only
    split <;> exact ⟨⟨rfl, rfl⟩, rfl⟩
  · exact ⟨⟨rfl, rfl⟩, rfl⟩

theorem onTick_keeps (s : State) (c : Call) :
    SameAsk c (c.onTick s).1 ∧ (c.onTick s).1.owned = c.owned := by
  unfold Call.onTick SameAsk
  split
  · split <;> exact ⟨⟨rfl, rfl⟩, rfl⟩
  · split <;> exact ⟨⟨rfl, rfl⟩, rfl⟩
  · exact ⟨⟨rfl, rfl⟩, rfl⟩
  · exact ⟨⟨rfl, rfl⟩, rfl⟩

/-- R155: the calls whose chime is over go LIVE. -/
theorem keepsAll_finishChimes (sel : Call → Bool) (s : State) : KeepsAll s (finishChimes sel s) := by
  unfold finishChimes
  refine KeepsAll.trans ?_ (KeepsAll.foldl (fun t c => keepsAll_callReport _ _ _ t) _ _)
  refine ⟨keeps_calls s _ s.lastNumber (fun b => by simpa using b.calls), fun o => owned_map _ o ?_⟩
  intro c
  split <;> exact ⟨⟨rfl, rfl⟩, rfl⟩

/-- R155, R156, R159: the voice tick for some of the calls. -/
theorem keepsAll_tickCalls (sel : Call → Bool) (s : State) : KeepsAll s (tickCalls sel s) := by
  unfold tickCalls
  refine ((keepsAll_produce _ s ?_).trans (keepsAll_endAll _ _ _)).trans (keepsAll_finishChimes _ _)
  intro c
  split
  · exact onTick_keeps s c
  · exact ⟨⟨rfl, rfl⟩, rfl⟩

end Sys2Proof.Machine
end

