-- ==== Sys2Proof/Laws/KeepsAxes.lean ====
section
/-! SUPPORT. What the operations of the axis channels and of mode control keep. -/

namespace Sys2Proof.Machine

open Sys2Proof

/-! ## Points and records of one axis -/

theorem axisPoint_above (a k : Nat) : 512 ≤ Config.axisPoint a k := by
  unfold Config.axisPoint; omega

theorem keepsAll_publishAxis (a : AxisId) (ks : List Nat) (s : State) :
    KeepsAll s (publishAxis a ks s) := by
  refine keepsAll_writePoints _ s ?_
  intro w hw
  simp only [List.mem_map] at hw
  obtain ⟨k, _, rfl⟩ := hw
  exact axisPoint_above _ _

theorem keepsAll_publishMotion (a : AxisId) (s : State) : KeepsAll s (publishMotion a s) :=
  keepsAll_publishAxis a _ s

/-- A change of one axis that keeps its counters and does not lengthen its move list. -/
theorem keepsAll_modifyAxis (a : AxisId) (f : Axis → Axis) (s : State)
    (hf : ∀ x, countersOf (f x) = countersOf x ∧ (f x).pending.length ≤ x.pending.length) :
    KeepsAll s (modifyAxis a f s) :=
  keepsAll_setAxis a _ s (hf _).1 (hf _).2

theorem keepsAll_reportMove (a : AxisId) (tag : Byte) (o : MoveOutcome) (cp : Int) (s : State) :
    KeepsAll s (reportMove a tag o cp s) := keepsAll_routine _ s

@[simp] theorem setImage_axes (new : Tab Point) (touched : List Nat) (s : State) :
    (setImage new touched s).axes = s.axes := by
  obtain ⟨es, he⟩ := setImage_cases new touched s; rw [he]

@[simp] theorem getAxis_publishAxis (a b : AxisId) (ks : List Nat) (s : State) :
    getAxis (publishAxis a ks s) b = getAxis s b := by
  simp [getAxis, publishAxis, writePoints]

theorem keepsAll_endAtStart (a : AxisId) (m : Move) (rest : List Move) (o : MoveOutcome) (s : State)
    (h : rest.length ≤ (getAxis s a).pending.length) : KeepsAll s (endAtStart a m rest o s) := by
  unfold endAtStart
  refine (keepsAll_setAxis a _ s ?_ ?_).trans (keepsAll_reportMove _ _ _ _ _)
  · rfl
  · exact h

theorem keepsAll_beginRun (c : Current) (p : Phase) (b : AxisId) (s : State) :
    KeepsAll s (beginRun c p b s) := by
  unfold beginRun
  dsimp only
  split
  · exact KeepsAll.refl s
  · split
    · refine ((keepsAll_setAxis b _ s ?_ ?_).trans (keepsAll_publishMotion _ _)).trans
        (keepsAll_tellMoving _ _)
      · rfl
      · exact le_refl _
    · exact KeepsAll.refl s

theorem takeUp_keeps (x : Axis) :
    countersOf x.takeUp = countersOf x ∧ x.takeUp.pending = x.pending := by
  unfold Axis.takeUp; split <;> exact ⟨rfl, rfl⟩

/-- R71, R73: the oldest pending move may start. -/
theorem keepsAll_startNext (fuel : Nat) (a : AxisId) (s : State) :
    KeepsAll s (startNext fuel a s).1 := by
  induction fuel generalizing s with
  | zero => exact KeepsAll.refl s
  | succ fuel ih =>
    unfold startNext
    dsimp only
    have hx := takeUp_keeps (getAxis s a)
    generalize (getAxis s a).takeUp = x at hx ⊢
    split
    · rename_i cfg m rest _ hp
      have hlen : rest.length ≤ (getAxis s a).pending.length := by rw [← hx.2, hp]; simp
      have hset : ∀ y : Axis, countersOf y = countersOf x → y.pending.length ≤ x.pending.length →
          KeepsAll s (setAxis a y s) := fun y hy hl =>
        keepsAll_setAxis a y s (hy.trans hx.1) (by rw [← hx.2]; exact hl)
      split
      · split
        · refine ((hset x rfl (le_refl _)).trans (keepsAll_endAtStart _ _ _ _ _ ?_)).trans (ih _)
          rw [getAxis_setAxis_same, hx.2]; exact hlen
        · split
          · refine ((hset _ ?_ ?_).trans (keepsAll_endAtStart _ _ _ _ _ ?_)).trans (ih _)
            · rfl
            · exact le_refl _
            · rw [getAxis_setAxis_same]; show rest.length ≤ x.pending.length; rw [hx.2]; exact hlen
          · split
            · refine ((hset _ ?_ ?_).trans (keepsAll_endAtStart _ _ _ _ _ ?_)).trans (ih _)
              · rfl
              · exact le_refl _
              · rw [getAxis_setAxis_same]; show rest.length ≤ x.pending.length; rw [hx.2]; exact hlen
            · refine hset _ ?_ ?_
              · rfl
              · show rest.length ≤ x.pending.length; rw [hx.2]; exact hlen
      · exact KeepsAll.refl s
    · exact KeepsAll.refl s

theorem keepsAll_startPending (moving : List AxisId) (a : AxisId) (s : State) :
    KeepsAll s (startPending moving a s) := by
  unfold startPending
  dsimp only
  have h1 := (keepsAll_startNext (Config.pendingCap + 1) a s).trans (keepsAll_publishMotion a _)
  split
  · exact h1
  · refine KeepsAll.trans ?_ (KeepsAll.foldl (fun t b => keepsAll_beginRun _ _ b t) _ _)
    split
    · exact h1
    · exact h1.trans (keepsAll_tellMoving _ _)

/-- R84, R104: an axis comes to rest. -/
theorem keepsAll_rest (a : AxisId) (o : MoveOutcome) (rest : AxisState) (s : State) :
    KeepsAll s (setAxis a ((getAxis s a).rested o rest) s) :=
  keepsAll_setAxis a _ s rfl (le_refl _)

theorem keepsAll_endRun (b : AxisId) (o : MoveOutcome) (rest : AxisState) (s : State) :
    KeepsAll s (endRun b o rest s) := by
  unfold endRun
  dsimp only
  split
  · exact KeepsAll.refl s
  · exact (keepsAll_rest b _ _ s).trans (keepsAll_reportMove _ _ _ _ _)

theorem keepsAll_tellIfAtRest (b : AxisId) (s : State) : KeepsAll s (tellIfAtRest b s) := by
  unfold tellIfAtRest
  split
  · exact keepsAll_tellAtRest b s
  · exact keepsAll_tellAtRest b s
  · exact keepsAll_tellAtRest b s
  · exact KeepsAll.refl s

/-- R84, R104: a move ends. -/
theorem keepsAll_finishMove (a : AxisId) (o : MoveOutcome) (namer : Option AxisId) (rest : AxisState)
    (s : State) : KeepsAll s (finishMove a o namer rest s) := by
  unfold finishMove
  dsimp only
  split
  · exact KeepsAll.refl s
  · exact ((((keepsAll_rest a _ _ s).trans (keepsAll_reportMove _ _ _ _ _)).trans
      (KeepsAll.foldl (fun t b => keepsAll_endRun b _ _ t) _ _)).trans
      (keepsAll_startPending _ _ _)).trans
      ((KeepsAll.foldl (fun t b => keepsAll_publishMotion b t) _ _).trans
        (KeepsAll.foldl (fun t b => keepsAll_tellIfAtRest b t) _ _))

/-! ## Stops and announcements -/

theorem keepsAll_followPhase (a : AxisId) (st : AxisState) (p : Phase) (s : State) :
    KeepsAll s (followPhase a st p s) := by
  refine KeepsAll.foldl (fun t b => ?_) _ s
  refine KeepsAll.trans ?_ (keepsAll_publishAxis b _ _)
  exact keepsAll_setAxis b _ t rfl (le_refl _)

/-- R79. -/
theorem keepsAll_slowStop (a : AxisId) (o : MoveOutcome) (namer : Option AxisId) (s : State) :
    KeepsAll s (slowStop a o namer s) := by
  unfold slowStop
  dsimp only
  split
  · split
    · exact keepsAll_finishMove _ _ _ _ _
    · refine ((keepsAll_setAxis a _ s ?_ ?_).trans (keepsAll_publishMotion _ _)).trans
        (keepsAll_followPhase _ _ _ _)
      · rfl
      · exact le_refl _
  · exact KeepsAll.refl s

/-- R80. -/
theorem keepsAll_quickStop (a : AxisId) (o : MoveOutcome) (namer : Option AxisId) (s : State) :
    KeepsAll s (quickStop a o namer s) := by
  unfold quickStop
  dsimp only
  split
  · exact keepsAll_finishMove _ _ _ _ _
  · split <;> exact keepsAll_finishMove _ _ _ _ _
  · exact KeepsAll.refl s

/-- R83. -/
theorem keepsAll_flushPending (a : AxisId) (s : State) : KeepsAll s (flushPending a s) := by
  unfold flushPending
  dsimp only
  split
  · exact KeepsAll.refl s
  · refine (keepsAll_setAxis a _ s ?_ ?_).trans
      (KeepsAll.foldl (fun t m => keepsAll_reportMove a _ _ _ t) _ _)
    · rfl
    · simp

/-- R82. -/
theorem keepsAll_announceAxis (o : MoveOutcome) (a : AxisId) (s : State) :
    KeepsAll s (announceAxis o a s) := by
  unfold announceAxis
  dsimp only
  split
  · exact KeepsAll.refl s
  · have h1 : KeepsAll s (setAxis a { getAxis s a with latch := false } s) :=
      keepsAll_setAxis a _ s rfl (le_refl _)
    split
    · exact h1
    · refine KeepsAll.trans ?_ (keepsAll_publishMotion a _)
      refine KeepsAll.trans ?_ (keepsAll_slowStop _ _ _ _)
      exact KeepsAll.ite (h1.trans (keepsAll_flushPending a _)) h1

theorem keepsAll_announceAll (o : MoveOutcome) (s : State) : KeepsAll s (announceAll o s) :=
  KeepsAll.foldl (fun t a => keepsAll_announceAxis o a t) _ s

theorem keepsAll_announceGate (z : Nat) (s : State) : KeepsAll s (announceGate z s) :=
  KeepsAll.foldl (fun t a => keepsAll_announceAxis .gated a t) _ s

/-- R141. -/
theorem keepsAll_haltZone (z : Nat) (s : State) : KeepsAll s (haltZone z s) := by
  refine KeepsAll.foldl (fun t a => ?_) _ s
  split
  · exact KeepsAll.refl t
  · exact keepsAll_quickStop _ _ _ _

/-! ## Axis orders -/

theorem keepsAll_deliverGo (a : AxisId) (args : List Byte) (s : State) :
    KeepsAll s (deliverGo a args s).1 := by
  unfold deliverGo
  dsimp only
  split
  · exact KeepsAll.refl s
  · split
    · exact KeepsAll.refl s
    · split
      · exact KeepsAll.refl s
      · refine KeepsAll.trans ?_ (keepsAll_startPending _ _ _)
        exact keepsAll_setAxis a _ s rfl (le_refl _)

theorem keepsAll_stopAxis (quick : Bool) (a : AxisId) (s : State) :
    KeepsAll s (stopAxis quick a s) := by
  unfold stopAxis
  dsimp only
  have h1 : KeepsAll s (setAxis a { getAxis s a with latch := false } s) :=
    keepsAll_setAxis a _ s rfl (le_refl _)
  split
  · split
    · refine KeepsAll.trans ?_ (keepsAll_quickStop _ _ _ _)
      exact h1
    · refine KeepsAll.trans ?_ (keepsAll_slowStop _ _ _ _)
      exact h1
  · split
    · refine KeepsAll.trans ?_ (keepsAll_quickStop _ _ _ _)
      exact h1
    · exact h1
  · refine KeepsAll.trans ?_ (keepsAll_publishAxis _ _ _)
    exact keepsAll_setAxis a _ s rfl (le_refl _)
  · exact h1
  · exact h1
  · exact h1

theorem keepsAll_deliverStop (a : AxisId) (args : List Byte) (s : State) :
    KeepsAll s (deliverStop a args s).1 := by
  unfold deliverStop
  dsimp only
  split
  · split
    · exact KeepsAll.refl s
    · split
      · exact KeepsAll.refl s
      · split
        · exact keepsAll_stopAxis _ _ s
        · exact keepsAll_stopAxis _ _ s
  · exact KeepsAll.refl s

/-- R67: a move that is taken lengthens the move list within its room. -/
theorem keepsAll_appendMove (a : AxisId) (y : Axis) (s : State)
    (hc : countersOf y = countersOf (getAxis s a)) (h : y.pending.length ≤ 2) :
    KeepsAll s (setAxis a y s) where
  frozen := rfl
  points := fun _ _ => rfl
  counters := by
    intro b
    rw [getAxis_setAxis]
    split_ifs with hb
    · subst hb; exact hc
    · rfl
  doors := fun _ => rfl
  zones := fun _ => rfl
  bounded := by
    intro b
    have hm : ∀ c : AxisId, (getAxis (setAxis a y s) c).pending.length ≤ 2 := by
      intro c
      rw [getAxis_setAxis]
      split_ifs with hc
      · exact h
      · exact b.moves c
    exact { b with moves := hm }
  canonical := fun c => { c with }
  held := id
  owned := id

theorem keepsAll_deliverMove (a : AxisId) (tag : Byte) (args : List Byte) (s : State) :
    KeepsAll s (deliverMove a tag args s).1 := by
  unfold deliverMove
  dsimp only
  split
  · exact KeepsAll.refl s
  · split
    · exact KeepsAll.refl s
    · split
      · exact KeepsAll.refl s
      · split
        · exact KeepsAll.refl s
        · split
          · exact KeepsAll.refl s
          · rename_i h
            split
            · exact KeepsAll.refl s
            · refine KeepsAll.trans ?_ (keepsAll_startPending _ _ _)
              refine keepsAll_appendMove a _ s rfl ?_
              simp only [Config.pendingCap, not_le] at h
              simp only [List.length_append, List.length_cons, List.length_nil]
              omega

/-! ## Mode control -/

theorem keepsAll_refuse (why : RefuseReason) (f : Frame) (o : Port) (rule : Option Nat)
    (e : Option Evaluation) (s : State) : KeepsAll s (refuse why f o rule e s) :=
  keepsAll_offerReport _ s

theorem keepsAll_reportVerdict (v : Verdict) (f : Frame) (o : Port) (rule : Option Nat)
    (e : Option Evaluation) (s : State) : KeepsAll s (reportVerdict v f o rule e s) :=
  keepsAll_routine _ s

/-- R59. -/
theorem keepsAll_refuseHeld (why : RefuseReason) (s : State) : KeepsAll s (refuseHeld why s) :=
  (keepsAll_hold s [] (fun _ => by simp) (fun _ => rfl)).trans
    (KeepsAll.foldl (fun t _ => keepsAll_refuse _ _ _ _ _ t) _ _)

theorem keepsAll_mode (s : State) (m : Mode) : KeepsAll s { s with mode := m } :=
  keepsAll_control s m s.classes s.partner s.lastNumber s.events

theorem keepsAll_announceMode (prev new : Mode) (cause : ModeCause) (s : State) :
    KeepsAll s (announceMode prev new cause s) :=
  (keepsAll_writePoints _ s (by simp [Config.modePoint])).trans (keepsAll_alarm _ _)

theorem keepsAll_tellSafe (s : State) : KeepsAll s (tellSafe s) :=
  (keepsAll_refuseHeld .mode s).trans (keepsAll_announceAll .safe _)

/-- R176. -/
theorem keepsAll_enterSafe (cause : ModeCause) (s : State) : KeepsAll s (enterSafe cause s) :=
  ((keepsAll_mode s .safe).trans (keepsAll_tellSafe _)).trans (keepsAll_announceMode _ _ _ _)

theorem keepsAll_setClass (c : FaultClass) (x : ClassState) (s : State) :
    KeepsAll s (setClass c x s) :=
  keepsAll_control s s.mode _ s.partner s.lastNumber s.events

/-- R178, R180. -/
theorem keepsAll_classesChanged (cs : List FaultClass) (who : Contributor) (s : State) :
    KeepsAll s (classesChanged cs who s) := by
  unfold classesChanged
  split
  · exact KeepsAll.refl s
  · refine ((keepsAll_writePoints _ s (by simp [Config.faultPoint])).trans
      (KeepsAll.foldl (fun t c => keepsAll_alarm _ t) _ _)).trans
      (KeepsAll.foldl (fun t c => ?_) _ _)
    split
    · exact keepsAll_enterSafe _ t
    · exact KeepsAll.refl t

theorem keepsAll_recount (c : FaultClass) (s : State) : KeepsAll s (recount c s) :=
  keepsAll_setClass _ _ s

/-- R178. -/
theorem keepsAll_tell (cs : List FaultClass) (who : Contributor) (s : State) :
    KeepsAll s (tell cs who s) := by
  unfold tell
  split
  · exact KeepsAll.refl s
  · exact (KeepsAll.foldl (fun t c => keepsAll_recount c t) _ s).trans
      (keepsAll_classesChanged _ _ _)

theorem keepsAll_occurrence (c : OccurrenceClass) (who : Contributor) (s : State) :
    KeepsAll s (occurrence c who s) := by
  unfold occurrence
  dsimp only
  split
  · exact KeepsAll.refl s
  · split
    · exact keepsAll_setClass _ _ s
    · exact (keepsAll_setClass _ _ s).trans (keepsAll_classesChanged _ _ _)

end Sys2Proof.Machine
end

