-- ==== Sys2Proof/Laws/KeepsUpdate.lean ====
section
/-! SUPPORT. What the stages of an axis update keep. -/

namespace Sys2Proof.Machine

open Sys2Proof

/-! ## Entry into FAULT -/

theorem keepsAll_announcePartner (m : PartnerMsg) (s : State) : KeepsAll s (announcePartner m s) :=
  keepsAll_control s s.mode s.classes _ s.lastNumber s.events

theorem keepsAll_tellLeader (a : AxisId) (st : PartnerStop) (s : State) :
    KeepsAll s (tellLeader a st s) := by
  unfold tellLeader
  split
  · exact keepsAll_announcePartner _ s
  · exact KeepsAll.refl s

theorem keepsAll_reportFault (a : AxisId) (cause : FaultCause) (tag : Option Byte) (s : State) :
    KeepsAll s (reportFault a cause tag s) := keepsAll_alarm _ s

theorem keepsAll_endRunsOf (a : AxisId) (s : State) : KeepsAll s (endRunsOf a s) := by
  refine KeepsAll.foldl (fun t b => ?_) _ s
  refine KeepsAll.trans ?_ (keepsAll_tellIfAtRest b _)
  refine KeepsAll.trans ?_ (keepsAll_publishAxis b _ _)
  exact keepsAll_endRun b _ _ t

/-- R97. -/
theorem keepsAll_enterFault (a : AxisId) (cause : FaultCause) (s : State) :
    KeepsAll s (enterFault a cause s) := by
  unfold enterFault
  dsimp only
  refine KeepsAll.trans ?_ (keepsAll_endRunsOf a _)
  refine KeepsAll.trans ?_ (keepsAll_tellLeader a _ _)
  refine KeepsAll.ite ?_ ?_
  · refine KeepsAll.trans ?_ (keepsAll_tellAtRest a _)
    refine KeepsAll.trans ?_ (keepsAll_tell _ _ _)
    refine KeepsAll.trans ?_ (keepsAll_reportFault a cause _ _)
    refine KeepsAll.trans ?_ (keepsAll_publishAxis a _ _)
    refine KeepsAll.trans ?_ (KeepsAll.foldl (fun t g => keepsAll_reportMove a g _ _ t) _ _)
    exact keepsAll_setAxis a _ s rfl (Nat.zero_le _)
  · refine KeepsAll.trans ?_ (keepsAll_tell _ _ _)
    refine KeepsAll.trans ?_ (keepsAll_reportFault a cause _ _)
    refine KeepsAll.trans ?_ (keepsAll_publishAxis a _ _)
    refine KeepsAll.trans ?_ (KeepsAll.foldl (fun t g => keepsAll_reportMove a g _ _ t) _ _)
    exact keepsAll_setAxis a _ s rfl (Nat.zero_le _)

/-! ## Motion -/

theorem followCount_keeps {y z : Axis} (h : followCount y = some z) :
    countersOf z = countersOf y ∧ z.pending = y.pending := by
  unfold followCount at h
  split at h
  · rename_i r cfg k _ _ _
    dsimp only at h
    split at h
    · cases h; exact ⟨rfl, rfl⟩
    · generalize (if r.up = true then y.cp + 1 else y.cp - 1) = cp at h
      split at h
      · cases h
      · cases h; exact ⟨rfl, rfl⟩
  · cases h; exact ⟨rfl, rfl⟩

/-- R103: the counts of a leader and its followers. -/
theorem keepsAll_emitCounts (n : Nat) (a : AxisId) (up : Bool) (s : State) :
    KeepsAll s (emitCounts n a up s).1 := by
  induction n generalizing s with
  | zero => exact KeepsAll.refl s
  | succ n ih =>
    unfold emitCounts
    dsimp only
    split
    · exact KeepsAll.refl s
    · refine KeepsAll.trans ?_ (ih _)
      refine KeepsAll.trans ?_ (keepsAll_modifyAxis a _ _ (fun x => ⟨rfl, le_refl _⟩))
      refine KeepsAll.foldl (fun t b => ?_) _ s
      split
      · rename_i y hy
        exact keepsAll_setAxis b y t (followCount_keeps hy).1 (by rw [(followCount_keeps hy).2])
      · exact KeepsAll.refl t

theorem keepsAll_clearPulses (a : AxisId) (s : State) : KeepsAll s (clearPulses a s) := by
  refine KeepsAll.foldl (fun t b => ?_) _ s
  exact keepsAll_modifyAxis b _ t (fun x => ⟨rfl, le_refl _⟩)

theorem keepsAll_positionStep (a : AxisId) (c : Current) (v : Nat) (s : State) :
    KeepsAll s (positionStep a c v s).1 := by
  unfold positionStep
  dsimp only
  refine KeepsAll.trans ?_ (keepsAll_modifyAxis a _ _ (fun x => ⟨rfl, le_refl _⟩))
  exact (keepsAll_clearPulses a s).trans (keepsAll_emitCounts _ a _ _)

theorem keepsAll_takeLatch (a : AxisId) (s : State) : KeepsAll s (takeLatch a s) :=
  keepsAll_modifyAxis a _ s (fun _ => ⟨rfl, le_refl _⟩)

theorem keepsAll_arrive (a : AxisId) (c : Current) (v : Nat) (s : State) :
    KeepsAll s (arrive a c v s) := by
  have h1 : KeepsAll s (modifyAxis a (fun x => { x with cp := c.move.dest }) s) :=
    keepsAll_modifyAxis a _ s (fun _ => ⟨rfl, le_refl _⟩)
  unfold arrive
  dsimp only
  split
  · split
    · refine KeepsAll.trans ?_ (keepsAll_finishMove a _ _ _ _)
      exact h1.trans (keepsAll_takeLatch a _)
    · refine KeepsAll.trans ?_ (keepsAll_finishMove a _ _ _ _)
      exact h1
  · refine KeepsAll.trans ?_ (keepsAll_finishMove a _ _ _ _)
    exact h1

theorem keepsAll_setPhase (a : AxisId) (p : Phase) (s : State) : KeepsAll s (setPhase a p s) := by
  unfold setPhase
  dsimp only
  split
  · exact KeepsAll.refl s
  · refine KeepsAll.trans ?_ (keepsAll_followPhase a _ _ _)
    refine KeepsAll.trans ?_ (keepsAll_publishAxis a _ _)
    exact keepsAll_setAxis a _ s rfl (le_refl _)

theorem keepsAll_moveStep (a : AxisId) (c : Current) (s : State) : KeepsAll s (moveStep a c s) := by
  have h1 : ∀ (p : Phase) (c1 : Current) (v : Nat),
      KeepsAll s (positionStep a c1 v (setPhase a p s)).1 :=
    fun p c1 v => (keepsAll_setPhase a p s).trans (keepsAll_positionStep a c1 v _)
  unfold moveStep
  dsimp only
  split
  · refine KeepsAll.trans ?_ (keepsAll_quickStop a _ _ _)
    exact h1 _ _ _
  · split
    · refine KeepsAll.trans ?_ (keepsAll_arrive a _ _ _)
      exact h1 _ _ _
    · split
      · refine KeepsAll.trans ?_ (keepsAll_setPhase a _ _)
        exact h1 _ _ _
      · exact h1 _ _ _

theorem keepsAll_stopStep (a : AxisId) (c : Current) (s : State) : KeepsAll s (stopStep a c s) := by
  unfold stopStep
  dsimp only
  split
  · exact (keepsAll_clearPulses a s).trans (keepsAll_quickStop a _ _ _)
  · split
    · refine KeepsAll.trans ?_ (keepsAll_quickStop a _ _ _)
      exact keepsAll_positionStep a _ _ s
    · split
      · refine KeepsAll.trans ?_ (keepsAll_quickStop a _ _ _)
        refine KeepsAll.trans ?_ (keepsAll_modifyAxis a _ _ (fun x => ⟨rfl, le_refl _⟩))
        exact keepsAll_positionStep a _ _ s
      · exact keepsAll_positionStep a _ _ s

/-- R74 stage 2. -/
theorem keepsAll_motionStage (a : AxisId) (s : State) : KeepsAll s (motionStage a s) := by
  unfold motionStage
  dsimp only
  split
  · exact keepsAll_moveStep a _ s
  · exact keepsAll_stopStep a _ s
  · exact keepsAll_setAxis a _ s rfl (le_refl _)
  · exact keepsAll_setAxis a _ s rfl (le_refl _)
  · exact keepsAll_setAxis a _ s rfl (le_refl _)
  · exact KeepsAll.refl s

/-- R74 stage 3. -/
theorem keepsAll_errorStage (a : AxisId) (s : State) : KeepsAll s (errorStage a s) :=
  keepsAll_modifyAxis a _ s (fun _ => ⟨rfl, le_refl _⟩)

/-! ## Supervision -/

theorem keepsAll_driveCheck (a : AxisId) (ill : Bool) (s : State) :
    KeepsAll s (driveCheck a ill s) := by
  unfold driveCheck
  dsimp only
  split
  · exact KeepsAll.refl s
  · split
    · exact KeepsAll.refl s
    · split
      · refine KeepsAll.trans ?_ (keepsAll_tell _ _ _)
        refine KeepsAll.trans ?_ (keepsAll_reportFault a _ _ _)
        exact keepsAll_setAxis a _ s rfl (le_refl _)
      · exact KeepsAll.refl s
    · exact keepsAll_enterFault a _ s

theorem keepsAll_tripCheck (a : AxisId) (s : State) : KeepsAll s (tripCheck a s) := by
  unfold tripCheck
  dsimp only
  split
  · exact KeepsAll.refl s
  · split
    · exact keepsAll_enterFault a _ s
    · exact KeepsAll.refl s

theorem keepsAll_limitCheck (a : AxisId) (s : State) : KeepsAll s (limitCheck a s) := by
  unfold limitCheck
  dsimp only
  split
  · exact KeepsAll.refl s
  · split
    · split
      · exact keepsAll_tellLeader a _ s
      · exact keepsAll_quickStop a _ _ s
    · exact KeepsAll.refl s

theorem keepsAll_contactCheck (a : AxisId) (s : State) : KeepsAll s (contactCheck a s) := by
  unfold contactCheck
  dsimp only
  split
  · exact KeepsAll.refl s
  · split
    · split
      · split
        · exact (keepsAll_takeLatch a s).trans (keepsAll_finishMove a _ _ _ _)
        · exact keepsAll_quickStop a _ _ s
      · split
        · exact (keepsAll_takeLatch a s).trans (keepsAll_finishMove a _ _ _ _)
        · exact KeepsAll.refl s
      · exact KeepsAll.refl s
    · exact KeepsAll.refl s

theorem keepsAll_reportCompare (a : AxisId) (k : Fin 4) (c : Comparator) (y : Axis)
    (tag : Option Byte) (s : State) : KeepsAll s (reportCompare a k c y tag s) :=
  keepsAll_routine _ s

theorem keepsAll_fire (a : AxisId) (k : Fin 4) (c : Comparator) (y : Axis) (s : State) :
    KeepsAll s (fire a k c y s) := by
  unfold fire
  dsimp only
  split
  · exact KeepsAll.refl s
  · exact KeepsAll.refl s
  · exact keepsAll_reportCompare a k c y _ s
  · exact (keepsAll_takeLatch a s).trans (keepsAll_reportCompare a k c y _ _)
  · refine KeepsAll.trans ?_ (keepsAll_reportCompare a k c y _ _)
    refine KeepsAll.ite (KeepsAll.ite ?_ ?_) ?_
    · exact KeepsAll.refl s
    · exact keepsAll_tellLeader a _ s
    · exact keepsAll_slowStop a _ _ s
  · refine KeepsAll.trans ?_ (keepsAll_reportCompare a k c y _ _)
    refine KeepsAll.ite (KeepsAll.ite ?_ ?_) ?_
    · exact KeepsAll.refl s
    · exact keepsAll_tellLeader a _ s
    · exact keepsAll_quickStop a _ _ s

theorem keepsAll_compare (a : AxisId) (y : Axis) (k : Fin 4) (s : State) :
    KeepsAll s (compare a y k s) := by
  unfold compare
  dsimp only
  split
  · exact KeepsAll.refl s
  · refine KeepsAll.ite ?_ ?_
    · refine KeepsAll.trans ?_ (keepsAll_fire a k _ y _)
      exact keepsAll_setAxis a _ s rfl (le_refl _)
    · exact keepsAll_setAxis a _ s rfl (le_refl _)

theorem keepsAll_comparatorCheck (a : AxisId) (y : Axis) (s : State) :
    KeepsAll s (comparatorCheck a y s) := by
  unfold comparatorCheck
  refine KeepsAll.trans ?_ (keepsAll_compare a y 3 _)
  refine KeepsAll.trans ?_ (keepsAll_compare a y 2 _)
  refine KeepsAll.trans ?_ (keepsAll_compare a y 1 _)
  exact keepsAll_compare a y 0 s

/-- R74: after the inputs are taken, the rest of the update keeps. -/
theorem keepsAll_updateAxis (a : AxisId) (i : AxisInputs) (s : State) :
    KeepsAll (setAxis a ((getAxis s a).takeInputs i).1 s) (updateAxis a i s) := by
  unfold updateAxis
  dsimp only
  generalize (getAxis s a).takeInputs i = r
  generalize setAxis a r.1 s = s1
  split
  · refine KeepsAll.trans ?_ (keepsAll_publishAxis a _ _)
    exact keepsAll_modifyAxis a _ s1 (fun _ => ⟨rfl, le_refl _⟩)
  · refine KeepsAll.trans ?_ (keepsAll_publishAxis a _ _)
    refine KeepsAll.trans ?_ (keepsAll_comparatorCheck a _ _)
    refine KeepsAll.trans ?_ (keepsAll_contactCheck a _)
    refine KeepsAll.trans ?_ (keepsAll_limitCheck a _)
    refine KeepsAll.trans ?_ (keepsAll_tripCheck a _)
    refine KeepsAll.trans ?_ (keepsAll_driveCheck a _ _)
    exact (keepsAll_motionStage a s1).trans (keepsAll_errorStage a _)

/-- R74 stage 1: the inputs stage keeps the record and the move list. -/
theorem takeInputs_keeps (x : Axis) (i : AxisInputs) :
    (x.takeInputs i).1.cfg = x.cfg ∧ (x.takeInputs i).1.pending = x.pending := by
  unfold Axis.takeInputs
  split
  exact ⟨rfl, rfl⟩

/-! ## Partners and AXIS_CLEAR -/

theorem keepsAll_takePartner (m : PartnerMsg) (s : State) : KeepsAll s (takePartner m s) := by
  unfold takePartner
  split
  · exact keepsAll_slowStop _ _ _ s
  · exact keepsAll_quickStop _ _ _ s
  · exact keepsAll_quickStop _ _ _ s
  · exact keepsAll_quickStop _ _ _ s

theorem keepsAll_partnerStep (a : AxisId) (s : State) : KeepsAll s (partnerStep a s) := by
  unfold partnerStep
  split
  · exact (keepsAll_control s s.mode s.classes _ s.lastNumber s.events).trans
      (keepsAll_takePartner _ _)
  · exact KeepsAll.refl s

theorem keepsAll_deliverClear (a : AxisId) (args : List Byte) (s : State) :
    KeepsAll s (deliverClear a args s).1 := by
  unfold deliverClear
  dsimp only
  split
  · exact KeepsAll.refl s
  · split
    · refine KeepsAll.trans ?_ (keepsAll_tell _ _ _)
      refine KeepsAll.trans ?_ (keepsAll_publishAxis a _ _)
      exact keepsAll_setAxis a _ s rfl (le_refl _)
    · exact KeepsAll.refl s

end Sys2Proof.Machine
end

