-- ==== Sys2Proof/Laws/KeepsZones.lean ====
section
/-! SUPPORT. What the operations of the door monitor and of the zone block keep. -/

namespace Sys2Proof.Machine

open Sys2Proof

/-! ## Doors -/

theorem deriveDoor_cfg (s : State) (x : Door) : (deriveDoor s x).cfg = x.cfg := rfl

theorem keepsAll_reportDoor (d : Nat) (old new : Door) (cause : DoorCause) (s : State) :
    KeepsAll s (reportDoor d old new cause s) := keepsAll_offerReport _ s

/-- R111. -/
theorem keepsAll_settleDoor (d : Nat) (old x y : Door) (cause : DoorCause) (s : State)
    (hd : Tab.get? s.doors d = some y) (hc : x.cfg = y.cfg) :
    KeepsAll s (settleDoor d old x cause s) := by
  have h1 : KeepsAll s (setDoor d (deriveDoor s x) s) :=
    keepsAll_setDoor d y (deriveDoor s x) s hd (by rw [deriveDoor_cfg]; exact hc)
  have h2 : KeepsAll s (reportDoor d old (deriveDoor s x) cause
      (writePoints [(Config.doorPoint d, (deriveDoor s x).state.code)]
        (setDoor d (deriveDoor s x) s))) := by
    refine KeepsAll.trans ?_ (keepsAll_reportDoor d old _ cause _)
    refine KeepsAll.trans h1 (keepsAll_writePoints _ _ ?_)
    simp only [List.mem_singleton, forall_eq, Config.doorPoint]; omega
  unfold settleDoor
  dsimp only
  exact KeepsAll.ite (KeepsAll.ite h1 h2) ((KeepsAll.ite h1 h2).trans (keepsAll_tell _ _ _))

theorem keepsAll_rederive (d : Nat) (cause : DoorCause) (s : State) :
    KeepsAll s (rederive d cause s) := by
  unfold rederive
  split
  · rename_i x h
    exact keepsAll_settleDoor d x x x cause s h rfl
  · exact KeepsAll.refl s

/-- R24. -/
theorem keepsAll_doorsOnEvent (names : List Nat) (s : State) :
    KeepsAll s (doorsOnEvent names s) := by
  refine KeepsAll.foldl (fun t e => ?_) _ s
  split
  · exact keepsAll_rederive _ _ t
  · exact KeepsAll.refl t

theorem seeOrder_cfg (s : State) (isClose : Bool) (x : Door) : (seeOrder s isClose x).cfg = x.cfg := by
  unfold seeOrder
  split <;> split <;> rfl

theorem keepsAll_doorSees (isClose : Bool) (d : Nat) (s : State) :
    KeepsAll s (doorSees isClose d s) := by
  unfold doorSees
  split
  · rename_i x h
    exact keepsAll_settleDoor d x _ x _ s h (seeOrder_cfg s isClose x)
  · exact KeepsAll.refl s

/-- R112. -/
theorem keepsAll_orderSent (f : Frame) (s : State) : KeepsAll s (orderSent f s) := by
  unfold orderSent
  split
  · refine KeepsAll.foldl (fun t e => ?_) _ s
    split
    · exact keepsAll_doorSees _ _ t
    · exact KeepsAll.refl t
  · exact KeepsAll.refl s

/-- R113. -/
theorem keepsAll_closeLimitExpires (d : Nat) (s : State) : KeepsAll s (closeLimitExpires d s) := by
  unfold closeLimitExpires
  split
  · rename_i x h
    split
    · exact keepsAll_settleDoor d x _ x _ s h rfl
    · exact KeepsAll.refl s
  · exact KeepsAll.refl s

theorem keepsAll_offerRound (l : List (Nat × Door)) (s : State) : KeepsAll s (offerRound l s) := by
  induction l generalizing s with
  | nil => exact KeepsAll.refl s
  | cons e rest ih =>
    unfold offerRound
    split
    · exact ih s
    · have h := keepsAll_offerSafety (closeFrame e.2.cfg) s
      split
      · rename_i t ht
        rw [ht] at h
        exact h.trans (ih t)
      · rename_i t ht
        rw [ht] at h
        exact h

theorem keepsAll_recloseRound (z : Nat) (s : State) : KeepsAll s (recloseRound z s) :=
  keepsAll_offerRound _ s

theorem keepsAll_setReclose (z : Nat) (running : Bool) (s : State) :
    KeepsAll s (setReclose z running s) := by
  unfold setReclose
  split
  · rename_i w h
    exact keepsAll_setZone z w _ s h rfl
  · exact KeepsAll.refl s

/-- R117. -/
theorem keepsAll_zoneAnnounced (z : Nat) (prev new : ZoneState) (s : State) :
    KeepsAll s (zoneAnnounced z prev new s) := by
  unfold zoneAnnounced
  split
  · split
    · exact KeepsAll.refl s
    · exact keepsAll_setReclose z _ s
  · exact (keepsAll_recloseRound z s).trans (keepsAll_setReclose z _ _)
  · exact keepsAll_setReclose z _ s
  · exact keepsAll_setReclose z _ s
  · exact keepsAll_setReclose z _ s

theorem keepsAll_recloseExpires (z : Nat) (s : State) : KeepsAll s (recloseExpires z s) := by
  unfold recloseExpires
  split
  · split
    · exact (keepsAll_recloseRound z s).trans (keepsAll_setReclose z _ _)
    · exact KeepsAll.refl s
  · exact KeepsAll.refl s

/-! ## Zones -/

theorem keepsAll_modifyZone (z : Nat) (f : Zone → Zone) (s : State) (hf : ∀ w, (f w).cfg = w.cfg) :
    KeepsAll s (modifyZone z f s) := by
  unfold modifyZone
  split
  · rename_i w h
    exact keepsAll_setZone z w _ s h (hf w)
  · exact KeepsAll.refl s

theorem keepsAll_publishZones (s : State) : KeepsAll s (publishZones s) := by
  refine keepsAll_writePoints _ s ?_
  intro w hw
  simp only [zoneWrites, List.mem_flatMap, List.mem_cons, List.not_mem_nil, or_false] at hw
  obtain ⟨e, _, rfl | rfl⟩ := hw
  · simp only [Config.zonePoint]; omega
  · simp only [Config.gatePoint]; omega

theorem keepsAll_reportZone (c : ZoneChange) (s : State) : KeepsAll s (reportZone c s) :=
  (keepsAll_alarm _ s).trans (keepsAll_zoneAnnounced _ _ _ _)

/-- R125. -/
theorem keepsAll_finishChanges (cs : List ZoneChange) (s : State) :
    KeepsAll s (finishChanges cs s) := by
  unfold finishChanges
  split
  · exact KeepsAll.refl s
  · exact (keepsAll_publishZones s).trans (KeepsAll.foldl (fun t c => keepsAll_reportZone c t) _ _)

theorem keepsAll_reportStep (z : Nat) (p : Option Nat) (k : Nat) (code : Option Nat) (r : StepResult)
    (s : State) : KeepsAll s (reportStep z p k code r s) := keepsAll_alarm _ s

theorem keepsAll_programError (z : Nat) (p : Option Nat) (k : Nat) (code : Option Nat)
    (r : StepResult) (s : State) : KeepsAll s (programError z p k code r s) :=
  (keepsAll_reportStep z p k code r s).trans (keepsAll_occurrence _ _ _)

theorem keepsAll_leaveClosing (z : Nat) (s : State) : KeepsAll s (leaveClosing z s).1 :=
  keepsAll_modifyZone z _ s (fun _ => rfl)

theorem keepsAll_offerCloses (l : List (Nat × Door)) (s : State) :
    KeepsAll s (offerCloses l s).1 := by
  induction l generalizing s with
  | nil => exact KeepsAll.refl s
  | cons e rest ih =>
    unfold offerCloses
    split
    · exact ih s
    · have h := keepsAll_offerSafety (closeFrame e.2.cfg) s
      split
      · rename_i t ht
        rw [ht] at h
        exact h.trans (ih t)
      · rename_i t ht
        rw [ht] at h
        exact h

theorem keepsAll_callStep (z : Nat) (p : Option Nat) (k t : Nat) (s : State) :
    KeepsAll s (callStep z p k t s) := by
  unfold callStep
  split
  · exact KeepsAll.refl s
  · have h := keepsAll_startCall t (.zone z) none s
    split
    · rename_i u _ hu
      rw [hu] at h
      exact h
    · rename_i u hu
      rw [hu] at h
      exact h.trans (keepsAll_programError _ _ _ _ _ _)
    · rename_i u hu
      rw [hu] at h
      exact h.trans (keepsAll_programError _ _ _ _ _ _)

theorem keepsAll_takeStep (z : Nat) (p : Option Nat) (k : Nat) (step : ProgStep) (s : State) :
    KeepsAll s (takeStep z p k step s).1 := by
  unfold takeStep
  split
  · have h := keepsAll_offerCloses (rankDoors s z ‹Nat›) s
    split
    · rename_i t ht
      rw [ht] at h
      exact h
    · rename_i t d ht
      rw [ht] at h
      exact h
  · split
    · exact KeepsAll.refl s
    · exact KeepsAll.refl s
  · exact KeepsAll.refl s
  · exact KeepsAll.refl s
  · exact keepsAll_callStep z p k _ s
  · rename_i st c d w
    have h := keepsAll_offerSafety (stepFrame st c d w) s
    split
    · rename_i t ht
      rw [ht] at h
      exact h
    · rename_i t ht
      rw [ht] at h
      exact h
  · exact keepsAll_haltZone z s
  · exact KeepsAll.refl s
  · exact KeepsAll.refl s

/-- R136. -/
theorem keepsAll_walk (fuel z : Nat) (s : State) : KeepsAll s (walk fuel z s).1 := by
  induction fuel generalizing s with
  | zero => exact keepsAll_leaveClosing z s
  | succ fuel ih =>
    unfold walk
    split
    · exact KeepsAll.refl s
    · rename_i w _
      split
      · exact KeepsAll.refl s
      · rename_i k _
        split
        · exact keepsAll_leaveClosing z s
        · rename_i step _
          have h := keepsAll_takeStep z w.cfg.program k step s
          split
          · rename_i t _ ht
            rw [ht] at h
            exact h.trans (keepsAll_leaveClosing z t)
          · rename_i t j ht
            rw [ht] at h
            refine KeepsAll.trans ?_ (ih _)
            exact h.trans (keepsAll_modifyZone z _ t (fun _ => rfl))
          · rename_i t wait _ _ ht
            rw [ht] at h
            exact h.trans (keepsAll_modifyZone z _ t (fun _ => rfl))

theorem keepsAll_walkFrom (z k : Nat) (s : State) : KeepsAll s (walkFrom z k s).1 := by
  unfold walkFrom
  refine KeepsAll.trans ?_ (keepsAll_walk _ z _)
  exact keepsAll_modifyZone z _ s (fun _ => rfl)

theorem keepsAll_resume (z k : Nat) (s : State) : KeepsAll s (resume z k s) :=
  (keepsAll_walkFrom z k s).trans (keepsAll_finishChanges _ _)

theorem keepsAll_leaveAlert (z : Nat) (s : State) : KeepsAll s (leaveAlert z s) := by
  unfold leaveAlert
  split
  · exact KeepsAll.refl s
  · rename_i w h
    have h1 : KeepsAll s (setZone z { w with timer := 0, alertCall := none } s) :=
      keepsAll_setZone z w _ s h rfl
    dsimp only
    split
    · exact h1
    · exact h1.trans (keepsAll_endFirst _ _ _)

/-- R129: one zone of a cascade. -/
theorem keepsAll_closeOne (cause : ZoneCause) (z : Nat) (s : State) :
    KeepsAll s (closeOne cause z s).1 := by
  unfold closeOne
  split
  · exact KeepsAll.refl s
  · dsimp only
    have h1 : ∀ (p : Prop) [Decidable p], KeepsAll s (announceGate z (modifyZone z
        (fun v => { v with state := .closing, timer := 0, wait := .none })
        (if p then leaveAlert z s else s))) := by
      intro p _
      refine KeepsAll.trans ?_ (keepsAll_announceGate z _)
      refine KeepsAll.trans ?_ (keepsAll_modifyZone z _ _ (fun _ => rfl))
      exact KeepsAll.ite (keepsAll_leaveAlert z s) (KeepsAll.refl s)
    split
    · exact (h1 _).trans (keepsAll_walkFrom z 1 _)
    · exact (h1 _).trans (keepsAll_leaveClosing z _)

/-- R129. -/
theorem keepsAll_enterClosing (z : Nat) (cause : ZoneCause) (s : State) :
    KeepsAll s (enterClosing z cause s) := by
  unfold enterClosing
  dsimp only
  refine KeepsAll.trans ?_ (keepsAll_finishChanges _ _)
  refine (keepsAll_closeOne cause z s).trans (KeepsAll.foldl_pair (fun acc y => ?_) _ _)
  exact keepsAll_closeOne _ y acc.1

theorem keepsAll_startAlertCall (z : Nat) (s : State) : KeepsAll s (startAlertCall z s) := by
  unfold startAlertCall
  split
  · exact KeepsAll.refl s
  · rename_i t _
    have h := keepsAll_startCall t (.zone z) none s
    dsimp only
    split
    · rename_i u n hu
      rw [hu] at h
      exact h.trans (keepsAll_modifyZone z _ u (fun _ => rfl))
    · rename_i u hu
      rw [hu] at h
      exact h.trans (keepsAll_programError _ _ _ _ _ _)
    · rename_i u hu
      rw [hu] at h
      exact h.trans (keepsAll_programError _ _ _ _ _ _)

/-- R127. -/
theorem keepsAll_enterAlert (z : Nat) (cause : ZoneCause) (s : State) :
    KeepsAll s (enterAlert z cause s) := by
  unfold enterAlert
  split
  · exact KeepsAll.refl s
  · rename_i w h
    split
    · exact keepsAll_enterClosing z cause s
    · dsimp only
      refine KeepsAll.trans ?_ (keepsAll_finishChanges _ _)
      refine KeepsAll.trans ?_ (keepsAll_startAlertCall z _)
      exact keepsAll_setZone z w _ s h rfl

/-- R126. -/
theorem keepsAll_evalTrigger (z : Nat) (s : State) : KeepsAll s (evalTrigger z s) := by
  unfold evalTrigger
  split
  · exact KeepsAll.refl s
  · rename_i w h
    have h1 : KeepsAll s (setZone z { w with trigger := evalTerm s w.cfg.trigger } s) :=
      keepsAll_setZone z w _ s h rfl
    dsimp only
    split
    · split
      · exact h1.trans (keepsAll_alarm _ _)
      · split
        · exact h1.trans (keepsAll_enterAlert z _ _)
        · exact h1
      · split
        · exact h1.trans (keepsAll_enterAlert z _ _)
        · exact h1
    · exact h1

theorem keepsAll_evalTriggers (s : State) : KeepsAll s (evalTriggers s) :=
  KeepsAll.foldl (fun t (e : Nat × Zone) => keepsAll_evalTrigger e.1 t) _ s

theorem keepsAll_rearmTriggers (s : State) : KeepsAll s (rearmTriggers s) :=
  (keepsAll_mapZones (fun w => { w with trigger := false }) s (fun _ => rfl)).trans
    (keepsAll_evalTriggers _)

theorem keepsAll_reexamine (z : Nat) (s : State) : KeepsAll s (reexamine z s) := by
  unfold reexamine
  split
  · exact KeepsAll.refl s
  · rename_i w h
    split
    · split
      · split
        · exact keepsAll_resume z _ s
        · exact KeepsAll.refl s
      · exact KeepsAll.refl s
    · exact KeepsAll.refl s

/-- R130. -/
theorem keepsAll_rejudge (z : Nat) (s : State) : KeepsAll s (rejudge z s) := by
  unfold rejudge
  split
  · exact KeepsAll.refl s
  · rename_i w h
    split
    · dsimp only
      split
      · exact KeepsAll.refl s
      · refine KeepsAll.trans ?_ (keepsAll_finishChanges _ _)
        exact keepsAll_setZone z w _ s h rfl
    · exact KeepsAll.refl s

/-- R24. -/
theorem keepsAll_zonesOnEvent (names : List Nat) (s : State) :
    KeepsAll s (zonesOnEvent names s) := by
  unfold zonesOnEvent
  dsimp only
  refine KeepsAll.trans ?_ (KeepsAll.foldl (fun t e => ?_) _ _)
  · refine KeepsAll.trans ?_ (KeepsAll.foldl (fun t (e : Nat × Zone) => keepsAll_reexamine e.1 t) _ _)
    refine KeepsAll.foldl (fun t e => ?_) _ s
    split
    · split
      · exact keepsAll_evalTrigger _ t
      · exact KeepsAll.refl t
    · exact KeepsAll.refl t
  · split
    · exact keepsAll_rejudge _ t
    · exact KeepsAll.refl t

/-! ## Expiries, waits and orders -/

theorem keepsAll_alertExpires (z : Nat) (s : State) : KeepsAll s (alertExpires z s) := by
  unfold alertExpires
  split
  · split
    · exact keepsAll_enterClosing z _ s
    · exact KeepsAll.refl s
  · exact KeepsAll.refl s

theorem keepsAll_awaitExpires (z : Nat) (s : State) : KeepsAll s (awaitExpires z s) := by
  unfold awaitExpires
  split
  · split
    · split
      · exact (keepsAll_reportStep _ _ _ _ _ s).trans (keepsAll_resume z _ _)
      · exact KeepsAll.refl s
    · exact KeepsAll.refl s
  · exact KeepsAll.refl s

theorem keepsAll_pause10Expires (z : Nat) (s : State) : KeepsAll s (pause10Expires z s) := by
  unfold pause10Expires
  split
  · split
    · exact keepsAll_resume z _ s
    · exact KeepsAll.refl s
  · exact KeepsAll.refl s

theorem keepsAll_pause100Expires (z : Nat) (s : State) : KeepsAll s (pause100Expires z s) := by
  unfold pause100Expires
  split
  · split
    · exact keepsAll_resume z _ s
    · exact KeepsAll.refl s
  · exact KeepsAll.refl s

theorem keepsAll_reoffer (z : Nat) (s : State) : KeepsAll s (reoffer z s) := by
  unfold reoffer
  split
  · split
    · split
      · rename_i d _ _ _ r _
        have h := keepsAll_offerCloses ((rankDoors s z r).filter (fun e => decide (d ≤ e.1))) s
        split
        · rename_i t ht
          rw [ht] at h
          exact h.trans (keepsAll_resume z _ t)
        · rename_i t n ht
          rw [ht] at h
          exact h.trans (keepsAll_modifyZone z _ t (fun _ => rfl))
      · exact KeepsAll.refl s
    · rename_i f _ _
      have h := keepsAll_offerSafety f s
      split
      · rename_i t ht
        rw [ht] at h
        exact h.trans (keepsAll_resume z _ t)
      · rename_i t ht
        rw [ht] at h
        exact h.trans (keepsAll_modifyZone z _ t (fun _ => rfl))
    · exact KeepsAll.refl s
  · exact KeepsAll.refl s

theorem keepsAll_zoneOrder (z : Nat) (args : List Byte) (act : Zone → State → State × Option SubReason)
    (s : State) (ha : ∀ w, Tab.get? s.zones z = some w → KeepsAll s (act w s).1) :
    KeepsAll s (zoneOrder z args act s).1 := by
  unfold zoneOrder
  split
  · exact KeepsAll.refl s
  · split
    · exact KeepsAll.refl s
    · rename_i w h
      exact ha w h

theorem keepsAll_deliverAlert (f : Frame) (s : State) : KeepsAll s (deliverAlert f s).1 :=
  keepsAll_zoneOrder _ _ _ s (fun _ _ => KeepsAll.ite (keepsAll_enterAlert _ _ s) (KeepsAll.refl s))

theorem keepsAll_deliverCloseNow (f : Frame) (s : State) : KeepsAll s (deliverCloseNow f s).1 :=
  keepsAll_zoneOrder _ _ _ s (fun _ _ => KeepsAll.ite (keepsAll_enterClosing _ _ s) (KeepsAll.refl s))

theorem keepsAll_deliverCancel (f : Frame) (s : State) : KeepsAll s (deliverCancel f s).1 := by
  refine keepsAll_zoneOrder _ _ _ s (fun w hw => ?_)
  have h1 : KeepsAll s (freshTrigger f.device w s) := keepsAll_setZone _ w _ s hw rfl
  split
  · dsimp only
    split
    · exact h1
    · dsimp only
      refine KeepsAll.trans ?_ (keepsAll_finishChanges _ _)
      refine KeepsAll.trans ?_ (keepsAll_modifyZone _ _ _ (fun _ => rfl))
      exact h1.trans (keepsAll_leaveAlert _ _)
  · exact KeepsAll.refl s

theorem keepsAll_deliverRelease (f : Frame) (s : State) : KeepsAll s (deliverRelease f s).1 := by
  refine keepsAll_zoneOrder _ _ _ s (fun w hw => ?_)
  have h1 : KeepsAll s (freshTrigger f.device w s) := keepsAll_setZone _ w _ s hw rfl
  split
  · dsimp only
    split
    · exact h1
    · dsimp only
      refine KeepsAll.trans ?_ (keepsAll_reportZone _ _)
      refine KeepsAll.trans ?_ (keepsAll_endAll _ _ _)
      refine KeepsAll.trans ?_ (keepsAll_publishZones _)
      exact h1.trans (keepsAll_modifyZone _ _ _ (fun _ => rfl))
  · exact KeepsAll.refl s

end Sys2Proof.Machine
end

