-- ==== Sys2Proof/Laws/KeepsSettle.lean ====
section
/-! SUPPORT. What judgement, the hold queue and the change events keep. -/

namespace Sys2Proof.Machine

open Sys2Proof

/-! ## Deliveries and judgement -/

theorem keepsAll_deliverCallStart (f : Frame) (s : State) :
    KeepsAll s (deliverCallStart f s).1 := by
  have hgo : ∀ o : Option ZoneSet, KeepsAll s
      (match startCall f.device (.bridge f.tag f.src) o s with
      | (t, .started _) => (t, none)
      | (t, .notValid) => (t, some SubReason.noSuch)
      | (t, .noRoom) => (t, some SubReason.queueFull)).1 := by
    intro o
    have h := keepsAll_startCall f.device (.bridge f.tag f.src) o s
    split
    · rename_i ht
      rw [ht] at h
      exact h
    · rename_i ht
      rw [ht] at h
      exact h
    · rename_i ht
      rw [ht] at h
      exact h
  unfold deliverCallStart
  dsimp only
  split
  · exact hgo none
  · exact hgo _
  · exact KeepsAll.refl s

theorem keepsAll_deliverCallEnd (f : Frame) (s : State) : KeepsAll s (deliverCallEnd f s).1 := by
  unfold deliverCallEnd
  split
  · exact KeepsAll.refl s
  · split
    · exact keepsAll_endFirst _ _ s
    · exact KeepsAll.refl s

/-- R53. -/
theorem keepsAll_deliver (f : Frame) (s : State) : KeepsAll s (deliver f s).1 := by
  unfold deliver
  split
  · exact keepsAll_deliverMove _ _ _ s
  · exact keepsAll_deliverGo _ _ s
  · exact keepsAll_deliverStop _ _ s
  · exact keepsAll_deliverClear _ _ s
  · exact keepsAll_deliverAlert f s
  · exact keepsAll_deliverCloseNow f s
  · exact keepsAll_deliverCancel f s
  · exact keepsAll_deliverRelease f s
  · exact keepsAll_deliverCallStart f s
  · exact keepsAll_deliverCallEnd f s
  · exact KeepsAll.refl s

theorem keepsAll_passOrder (f : Frame) (s : State) : KeepsAll s (passOrder f s).1 := by
  unfold passOrder
  split
  · have h := keepsAll_deliver f s
    split
    · rename_i ht
      rw [ht] at h
      exact h
    · rename_i ht
      rw [ht] at h
      exact h
  · have h := keepsAll_offerOrder f s
    split
    · rename_i ht
      rw [ht] at h
      exact h
    · rename_i ht
      rw [ht] at h
      exact h

theorem keepsAll_passes (f : Frame) (o : Port) (rule : Option Nat) (notify : Bool)
    (e : Option Evaluation) (s : State) : KeepsAll s (passes f o rule notify e s) := by
  have h := keepsAll_passOrder f s
  unfold passes
  split
  · rename_i t why ht
    rw [ht] at h
    exact h.trans (keepsAll_refuse _ _ _ _ _ t)
  · rename_i t ht
    rw [ht] at h
    split
    · exact h.trans (keepsAll_reportVerdict _ _ _ _ _ t)
    · exact h

/-- An order that joins the hold queue within its room. -/
theorem keeps_joinHold (x : HoldEntry) (s : State) (h : s.hold.length < 8) :
    Bounded s → Bounded { s with hold := s.hold ++ [x] } :=
  fun b => { b with hold := by simp; omega }

/-- R52: an order that is not passed keeps everything but the emptiness of the hold queue. -/
theorem keeps_notPassed (f : Frame) (o : Port) (n : Nat) (r : Rule) (e : Evaluation) (s : State) :
    (KeepsAll s (notPassed f o n r e s)) ∨
    ∃ x, s.hold.length < 8 ∧ KeepsAll { s with hold := s.hold ++ [x] } (notPassed f o n r e s) := by
  unfold notPassed
  split
  · exact Or.inl (keepsAll_refuse _ _ _ _ _ s)
  · split
    · rename_i h
      exact Or.inr ⟨_, h, keepsAll_reportVerdict _ _ _ _ _ _⟩
    · exact Or.inl (keepsAll_refuse _ _ _ _ _ s)

/-- R41: a judged order keeps, but for its own place in the hold queue. -/
theorem keeps_judge (f : Frame) (o : Port) (s : State) :
    (KeepsAll s (judge f o s)) ∨
    ∃ x, s.hold.length < 8 ∧ KeepsAll { s with hold := s.hold ++ [x] } (judge f o s) := by
  unfold judge
  split
  · exact Or.inl (keepsAll_refuse _ _ _ _ _ s)
  · split
    · exact Or.inl (keepsAll_refuse _ _ _ _ _ s)
    · split
      · exact Or.inl (keepsAll_refuse _ _ _ _ _ s)
      · split
        · split
          · exact Or.inl (keepsAll_passes _ _ _ _ _ s)
          · exact Or.inl (keepsAll_refuse _ _ _ _ _ s)
        · dsimp only
          split
          · exact Or.inl (keepsAll_passes _ _ _ _ _ s)
          · exact keeps_notPassed _ _ _ _ _ s

/-! ## The hold queue -/

theorem keepsAll_markHeld (due : Rule → Bool) (s : State) : KeepsAll s (markHeld due s) :=
  keepsAll_hold s _ (fun b => by simpa using b.hold) (fun h => by rw [h]; rfl)

theorem keepsAll_releaseEntry (h : HoldEntry) (s : State) : KeepsAll s (releaseEntry h s) := by
  unfold releaseEntry
  split
  · exact keepsAll_refuse _ _ _ _ _ s
  · have hp := keepsAll_passOrder h.frame s
    split
    · rename_i t why ht
      rw [ht] at hp
      exact hp.trans (keepsAll_refuse _ _ _ _ _ t)
    · rename_i t ht
      rw [ht] at hp
      exact hp.trans (keepsAll_reportVerdict _ _ _ _ _ t)

/-- Where a list splits, it is what stands before, the element and what stands behind. -/
theorem splitFirst_eq {α : Type} {p : α → Bool} {l before after : List α} {x : α}
    (h : splitFirst p l = some (before, x, after)) : l = before ++ x :: after ∧ p x = true := by
  induction l generalizing before with
  | nil => simp [splitFirst] at h
  | cons y ys ih =>
    unfold splitFirst at h
    split at h
    · simp only [Option.some.injEq, Prod.mk.injEq] at h
      obtain ⟨rfl, rfl, rfl⟩ := h
      exact ⟨rfl, ‹_›⟩
    · split at h
      · rename_i hs
        simp only [Option.some.injEq, Prod.mk.injEq] at h
        obtain ⟨rfl, rfl, rfl⟩ := h
        obtain ⟨he, hp⟩ := ih hs
        exact ⟨by rw [he]; rfl, hp⟩
      · simp at h

/-- R55: the re-evaluation of one entry. -/
theorem keepsAll_reevaluate (before : List HoldEntry) (h : HoldEntry) (after : List HoldEntry) (s : State)
    (hs : s.hold = before ++ h :: after) : KeepsAll s (reevaluate before h after s) := by
  have hstay : ∀ g : HoldEntry, KeepsAll s { s with hold := before ++ g :: after } := fun g =>
    keepsAll_hold s _ (fun b => by have := b.hold; rw [hs] at this; simpa using this)
      (fun e => by rw [hs] at e; simp at e)
  unfold reevaluate
  split
  · exact hstay _
  · dsimp only
    split
    · refine KeepsAll.trans ?_ (keepsAll_releaseEntry _ _)
      exact keepsAll_hold s _
        (fun b => by have := b.hold; rw [hs] at this; simp at this ⊢; omega)
        (fun e => by rw [hs] at e; simp at e)
    · exact hstay _

/-- R55: the re-evaluation of the due entries. -/
theorem keepsAll_reevaluateHeld (s : State) : KeepsAll s (reevaluateHeld s) := by
  unfold reevaluateHeld
  generalize s.hold.length = fuel
  induction fuel generalizing s with
  | zero => exact KeepsAll.refl s
  | succ fuel ih =>
    unfold reevaluateWith
    split
    · exact KeepsAll.refl s
    · rename_i hs
      exact (keepsAll_reevaluate _ _ _ s (splitFirst_eq hs).1).trans (ih _)

theorem keepsAll_heldOnEvent (names : List Nat) (s : State) : KeepsAll s (heldOnEvent names s) :=
  (keepsAll_markHeld _ s).trans (keepsAll_reevaluateHeld _)

/-- R55, R56. -/
theorem keepsAll_releaseHeld (s : State) : KeepsAll s (releaseHeld s) :=
  (keepsAll_markHeld _ s).trans (keepsAll_reevaluateHeld _)

theorem keepsAll_filterHold (p : HoldEntry → Bool) (s : State) :
    KeepsAll s { s with hold := s.hold.filter p } :=
  keepsAll_hold s _ (fun b => (List.length_filter_le p s.hold).trans b.hold)
    (fun h => by rw [h]; rfl)

/-- R57. -/
theorem keepsAll_expireHeld (s : State) : KeepsAll s (expireHeld s) := by
  unfold expireHeld
  refine KeepsAll.trans ?_ (KeepsAll.foldl (fun t h => keepsAll_refuse _ _ _ _ _ t) _ _)
  exact keepsAll_filterHold _ s

/-- R46. -/
theorem keepsAll_ruleChanged (n : Nat) (s : State) : KeepsAll s (ruleChanged n s) := by
  unfold ruleChanged
  refine KeepsAll.trans ?_ (KeepsAll.foldl (fun t h => keepsAll_refuse _ _ _ _ _ t) _ _)
  exact keepsAll_filterHold _ s

/-! ## Change events -/

theorem keepsAll_takeEvent (names : List Nat) (s : State) : KeepsAll s (takeEvent names s) :=
  ((keepsAll_heldOnEvent names s).trans (keepsAll_zonesOnEvent names _)).trans
    (keepsAll_doorsOnEvent names _)

/-- R23, R24: taking every change event keeps. -/
theorem keepsAll_settle (s : State) : KeepsAll s (settle s) := by
  unfold settle
  generalize Config.eventFuel = fuel
  induction fuel generalizing s with
  | zero => exact KeepsAll.refl s
  | succ fuel ih =>
    unfold settleWith
    split
    · exact KeepsAll.refl s
    · rename_i e rest _
      refine KeepsAll.trans ?_ (ih _)
      refine KeepsAll.trans ?_ (keepsAll_takeEvent e _)
      exact keepsAll_control s s.mode s.classes s.partner s.lastNumber rest

end Sys2Proof.Machine
end

