-- ==== Sys2Proof/Tests/Slice0.lean ====
section
/-! SUPPORT. Tests: ill-formed commands are refused by the well-formedness checks; values of the manual's
tables and worked examples; and for every statement with hypotheses a witness, a state and operands that
meet its hypotheses together. -/

namespace Sys2Proof.Tests

open Sys2Proof Sys2Proof.Machine

set_option maxRecDepth 100000

/-! ## Frames and states the tests are made of -/

/-- An ORDER frame from station 9 with tag 7. -/
def order (dest code device : Nat) (args : List Byte) : Frame :=
  { kind := .order, dest := BitVec.ofNat 6 dest, src := 9
    payload := [BitVec.ofNat 8 code, BitVec.ofNat 8 device, 7, BitVec.ofNat 8 args.length] ++ args }

/-- A SAMPLE frame from station 9 with sequence 5. -/
def sampleOf (dest : Nat) (pairs : List Byte) : Frame :=
  { kind := .sample, dest := BitVec.ofNat 6 dest, src := 9
    payload := [5, BitVec.ofNat 8 (pairs.length / 3)] ++ pairs }

/-- A VOICE frame on channel 1 from station 9, to a station. -/
def voiceTo (dest : Nat) : Frame :=
  { kind := .voice, dest := BitVec.ofNat 6 dest, src := 9, payload := 1 :: List.replicate 68 0 }

/-- A REPORT frame from station 9, to a station. -/
def reportTo (dest : Nat) : Frame :=
  { kind := .report, dest := BitVec.ofNat 6 dest, src := 9, payload := [1] }

/-- A MANAGE frame with tag 3. -/
def manageFrom (src dest : Nat) (code flags : Byte) (ops : List Byte) : Frame :=
  { kind := .manage, dest := BitVec.ofNat 6 dest, src := BitVec.ofNat 6 src
    payload := [code, 3, flags] ++ ops }

/-- The part in RUN with the default verdict PASS and nothing configured. -/
def running : State := { State.reset with mode := .run, settings := { verdict := .pass } }

/-- A frame from a station without an entry, not the manager, leaves the monitors as they are. -/
theorem arrives {p : Port} {f : Frame} {s : State} (h : parseFrame f.bytes = some f)
    (hs : s.stations = []) (he : s.events = []) (hm : f.src.toNat ≠ s.settings.manager) :
    Arrives p f.bytes f s s where
  spells := h
  side := by simp [sideDiffers, getStation, hs]
  heard := by
    have h1 : stationHeard f.src.toNat s = s := by simp [stationHeard, getStation, hs]
    have h2 : heard p f s = s := by simp [heard, h1, hm]
    rw [h2]
    simp [settle, settleWith, Config.eventFuel, he]

/-- With no rule and the default verdict PASS, an order passes once mode, decode and gate let it. -/
theorem passesJudgement {p : Port} {f : Frame} {s : State} (hr : s.rules = [])
    (hv : s.settings.verdict = .pass) (hm : modeAllows s.mode f = true)
    (hd : f.dest = 0 → decodes f = true) (hg : gateBars s f = false) : PassesJudgement f p s where
  mode := hm
  decode := hd
  gate := hg
  rule := by
    have h : lookupRule s p f = none := by simp [lookupRule, hr]
    rw [h]; exact hv

/-! ## Ill-formed commands -/

theorem test_frame_of_another_row_is_ill_formed :
    (Instr.axisGo .b (order 0 0x20 0 []).bytes).wf = false := by decide
theorem test_malformed_frame_is_well_formed : (Instr.axisGo .b [1, 2, 3]).wf = true := by decide
theorem test_read_event_of_another_code_is_ill_formed :
    (Instr.readStatus (.arrives .b (manageFrom 1 0 9 0 [0, 0, 1]).bytes)).wf = false := by decide
theorem test_call_number_0_is_ill_formed : (Instr.chimeEnd 0).wf = false := by decide
theorem test_call_number_256_is_ill_formed : (Instr.callDurationExpiry 256).wf = false := by decide
theorem test_zone_16_is_ill_formed : (Instr.alertTimerExpiry 16).wf = false := by decide
theorem test_door_96_is_ill_formed : (Instr.closeLimitExpiry 96).wf = false := by decide
theorem test_station_63_is_ill_formed : (Instr.stationSilence 63).wf = false := by decide
theorem test_station_0_is_ill_formed : (Instr.stationSilence 0).wf = false := by decide
theorem test_no_word_spells_a_command : decodeTableWord 8 1 = none := by decide

/-! ## Chapter 1 -/

/-- The check value of the polynomial, preset and bit order that R3 names, over "123456789". -/
theorem test_crc_check_value :
    crc16 [0x31, 0x32, 0x33, 0x34, 0x35, 0x36, 0x37, 0x38, 0x39] = 0x29B1 := by decide

/-- R3: the smallest frame, its header written bit by bit: kind 4, destination 0, source 1. -/
theorem test_header_bits : (parseFrame ([0x40, 0x00, 0x10, 0x00] ++ crcBytes [0x40, 0x00, 0x10, 0x00])) =
    some { kind := .manage, dest := 0, src := 1, payload := [] } := by decide
theorem test_wrong_crc_is_malformed : parseFrame [0x40, 0x00, 0x10, 0x00, 0x00, 0x00] = none := by decide
theorem test_source_0_is_malformed :
    parseFrame ([0x40, 0x00, 0x00, 0x00] ++ crcBytes [0x40, 0x00, 0x00, 0x00]) = none := by decide

/-- Table 1-10: reports V1, Z1 (ALARM) and C1, forwarded samples S1 and S2. -/
def table110 : State :=
  { running with
    reports := [⟨false, .station .recovered 1 .d⟩, ⟨true, .station .silent 2 .d⟩,
      ⟨false, .station .recovered 3 .d⟩]
    link := { dToB := [sampleOf 1 [0, 0, 1], sampleOf 1 [0, 0, 2]], bTx := some (reportTo 1) } }

/-- Table 1-10 steps 1 and 2: Z1, then by the turn S1. -/
theorem test_b_port_order :
    let s1 := finishB table110;
    let s2 := finishB s1;
    (s1.reports.length, s1.link.turn, s2.link.bTx, s2.link.turn) =
      (2, .forward, some (sampleOf 1 [0, 0, 1]), .report) := by decide

/-- Section 1.10: a full queue with orders displaces its oldest frame that is no order. -/
theorem test_sample_burst :
    let o := order 20 0x10 0 ([] : List Byte);
    let s := { running with link := {
      dTx := some o
      forward := o :: List.replicate 15 (sampleOf 20 [0, 0, 1]) } };
    (offerForward (sampleOf 20 [0, 0, 9]) s).link.forward =
      o :: (List.replicate 14 (sampleOf 20 [0, 0, 1]) ++ [sampleOf 20 [0, 0, 9]]) := by decide

/-! ## Chapter 3 -/

/-- A point of the image. -/
def pt (v : Word16) (q : Quality) : Point := { value := v, quality := q }

/-- Table 3-8. -/
def rule12 : Rule :=
  { origin := none, dest := some 0, code := some 0x20, devLow := 0, devHigh := 0
    t0 := ⟨some 205, 1, .eq, 1, .asFalse⟩, t1 := ⟨some 206, 1, .eq, 1, .asFalse⟩
    t2 := ⟨some 230, 0xFFFF, .lt, 250, .useValue⟩, t3 := ⟨none, 0, .never, 0, .asFalse⟩
    tt1 := 0x0080, tt0 := 0, selector := some (220, 0), verdict := .hold, holdLimit := 50
    notify := false }

/-- Table 3-9: the points of a case. -/
def case39 (a b wind harbour : Point) : State :=
  { running with points := [(205, a), (206, b), (220, harbour), (230, wind)] }

theorem test_table_3_9_a : evalRule (case39 (pt 1 .fresh) (pt 1 .fresh) (pt 180 .fresh) (pt 1 .fresh)) rule12 =
    (⟨7, true, false⟩, true) := by decide
theorem test_table_3_9_d : evalRule (case39 (pt 1 .stale) (pt 1 .fresh) (pt 180 .fresh) (pt 1 .fresh)) rule12 =
    (⟨6, true, false⟩, false) := by decide
theorem test_table_3_9_e : evalRule (case39 (pt 1 .fresh) (pt 1 .fresh) (pt 180 .fresh) (pt 1 .stale)) rule12 =
    (⟨7, false, false⟩, false) := by decide
theorem test_table_3_9_f : evalRule (case39 (pt 1 .fresh) (pt 1 .fresh) (pt 100 .forced) (pt 1 .fresh)) rule12 =
    (⟨7, true, true⟩, true) := by decide
theorem test_table_3_9_g : evalRule (case39 (pt 1 .fresh) (pt 0 .never) (pt 260 .fresh) (pt 1 .fresh)) rule12 =
    (⟨1, true, false⟩, false) := by decide

/-! ## Chapter 4 -/

/-- Table 4-5 as a current move. -/
def move45 : Move :=
  { tag := 1, relative := true, land := false, target := 6000, vs := 100, vc := 1500, acc := 500
    dec := 400, vk := 50, lk := 200, offset := 0, dest := 6000 }
def run45 (vacc pacc : Nat) : Current :=
  { move := move45, vs := 100, vc := 1500, vk := 50, dec := 400, start := 0, up := true, dist := 6000
    vacc := vacc, pacc := pacc }

/-- Section 4.6: the braking distances 211 at the start and 3012 in cruise. -/
theorem test_braking_distance :
    (brakingDistance (run45 100000 0) 100, brakingDistance (run45 1500000 0) 1500) = (211, 3012) := by
  decide
/-- Section 4.6: after 498 cruise updates the phase stays, after 499 it is DECEL. -/
theorem test_phase_decision :
    (phaseDecision (run45 1500000 2987000) .cruise, phaseDecision (run45 1500000 2988500) .cruise) =
      (.cruise, .decel) := by decide
/-- Section 4.6: the last ACCEL update reaches CRUISE, the last DECEL update CREEP. -/
theorem test_velocity_step :
    (velocityStep (run45 1499500 0) .accel, velocityStep (run45 50400 0) .decel) =
      ((1500000, .cruise), (50000, .creep)) := by decide

/-! ## Chapters 5 to 10 -/

/-- Table 5-4: e after leader counts 3 and 8, with Nf 3 and Nl 8. -/
def follower (e : Nat) (cp : Int) : Axis :=
  { cfg := some { zone := none, low := -1000, high := 1000, vmax := 2000, trip := 100, policy := .keep
                  warning := none, coupling := some ⟨2, 3, 8, false⟩, scale := 0
                  comps := Vector.replicate 4 ⟨.cp, .never, 0, .any, .none⟩ }
    state := .moving, run := some ⟨1, true, e⟩, cp := cp }
theorem test_table_5_4 :
    (followCount (follower 6 0), (followCount (follower 5 2)).bind (·.run)) =
      (some { follower 1 1 with pulses := 1 }, some ⟨1, true, 0⟩) := by decide

/-- Table 6-3 lines 6 and 8, Table 6-4 at t = 3000: the jam. -/
theorem test_table_6_3 :
    (doorStateOf (some false) (some false) .close false, doorStateOf (some false) (some false) .none false,
      doorStateOf (some false) (some false) .none true) = (.closing, .moving, .jammed) := by decide

/-- R157 and section 8.8: 1000 at gains 48 and 32, and at 48 and 48; toward zero. -/
theorem test_output_sample : (outSample 1000 48 32, outSample 1000 48 48, outSample (-1000) 48 48) =
    (375, 562, -562) := by decide
/-- R158: pattern 0 is 800 Hz (half-period 5), pattern 1 is silent from step 14 on. -/
theorem test_tone_sample : (toneSample 0 4, toneSample 0 5, toneSample 1 11200) = (8000, -8000, 0) := by
  decide

/-- R158: a frame of pattern 2 carries samples of the step its count lies in; step 1 is 500 Hz. -/
theorem test_tone_step : (toneSample 2 799, toneSample 2 800, toneSample 2 808) =
    (-8000, 8000, -8000) := by decide

/-! ## Witnesses: the link and the point image -/

theorem witness_StepRunsFrontCommand :
    ({ running with pending := [.tick10Ms] } : State).pending = .tick10Ms :: [] ∧
      running.pending = [] := by decide

/-- An order, and the longest payload R3 allows. -/
theorem witness_SentFrameIsReadBack :
    (let f := order 20 0x10 3 []; f.payload.length ≤ 80 ∧ f.src ≠ 0 ∧ f.src ≠ 63 ∧
      payloadFits f.kind f.payload = true) ∧
    (let f := manageFrom 62 0 1 0 (List.replicate 77 0); f.payload.length = 80 ∧ f.src ≠ 0 ∧
      f.src ≠ 63 ∧ payloadFits f.kind f.payload = true) :=
  ⟨by decide, rfl, by decide, by decide, rfl⟩

theorem witness_ForwardedFrameKeepsItsBytes :
    parseFrame (order 20 0x10 3 []).bytes = some (order 20 0x10 3 []) := by decide

/-- A station 9 on the B-side. -/
def station9 (side : Port) : Station := { entry := some ⟨side, 10⟩, state := .online, count := 3 }
def knowing (side : Port) : State := { running with stations := [(9, station9 side)] }

/-- The count goes above the threshold of 16; it reaches 16; the source lies on the other side. -/
theorem witness_DroppedFramesAreCountedOrReported :
    parseFrame [] = none ∧
    (let s : State := { running with link := { errB := 16 } };
      s.settings.errThreshold < min 65535 (errorCount s .b + 1) ∧ occurrenceMade s .b = false) ∧
    (let s : State := { running with link := { errB := 15 } };
      ¬(s.settings.errThreshold < min 65535 (errorCount s .b + 1) ∧ occurrenceMade s .b = false)) ∧
    parseFrame (sampleOf 20 [0, 0, 1]).bytes = some (sampleOf 20 [0, 0, 1]) ∧
    (getStation (knowing .d) 9).entry = some ⟨.d, 10⟩ ∧ Port.d ≠ Port.b := by decide

/-- A frame from station 9 with an entry on the port's side arrives. -/
theorem arrives_known {p : Port} {f : Frame} {s : State} (h : parseFrame f.bytes = some f)
    (hd : sideDiffers s p f = false) : Arrives p f.bytes f s (settle (heard p f s)) :=
  ⟨h, hd, rfl⟩

/-- New and across; the sequence known and the destination the part; no entry. -/
theorem witness_SampleFrameIsAppliedOnce :
    (let f := sampleOf 20 [0, 0, 1]; let s := knowing .b; let t := settle (heard .b f s);
      Arrives .b f.bytes f s t ∧ f.kind = .sample ∧ (getStation t f.src.toNat).entry ≠ none ∧
      (getStation t f.src.toNat).lastSeq ≠ some f.sequence ∧ destination t .b f = .across) ∧
    (let f := sampleOf 0 [0, 0, 1];
      let s : State := { running with stations := [(9, { station9 .d with lastSeq := some 5 })] };
      let t := settle (heard .d f s);
      Arrives .d f.bytes f s t ∧ (getStation t f.src.toNat).lastSeq = some f.sequence ∧
      destination t .d f ≠ .across) ∧
    (let f := sampleOf 20 [0, 0, 1];
      Arrives .b f.bytes f running running ∧ (getStation running f.src.toNat).entry = none) := by
  refine ⟨⟨arrives_known (by decide) (by decide), by decide, by decide, by decide, by decide⟩,
    ⟨arrives_known (by decide) (by decide), by decide, by decide⟩,
    ⟨arrives (by decide) rfl rfl (by decide), by decide⟩⟩

/-- Slot 0 of station 9 is mapped to point 5; slot 1 to nothing. -/
def mapped : State := { running with pointMap := [(0, ⟨9, 0, 5, 2, .keep⟩)] }

theorem witness_SamplePairsSetTheirPoints :
    pairWrites mapped (sampleOf 0 [0, 0, 1, 0, 0, 2]) = [(5, 1), (5, 2)] ∧
    pairWrites mapped (sampleOf 0 [1, 0, 1]) = [] ∧
    (getPoint (applySample (sampleOf 0 [0, 0, 1, 0, 0, 2]) mapped) 5).value ≠ (getPoint mapped 5).value ∧
    applySample (sampleOf 0 [1, 0, 1]) mapped = mapped := by decide

theorem witness_OtherFramesAreConsumedOrCarried :
    (Arrives .b (voiceTo 63).bytes (voiceTo 63) running running ∧ (voiceTo 63).kind = .voice) ∧
    (Arrives .d (voiceTo 20).bytes (voiceTo 20) running running ∧
      destination running .d (voiceTo 20) = .across) ∧
    (Arrives .d (voiceTo 0).bytes (voiceTo 0) running running ∧
      destination running .d (voiceTo 0) ≠ .across) ∧
    (Arrives .b (reportTo 20).bytes (reportTo 20) running running ∧ (reportTo 20).kind = .report ∧
      destination running .b (reportTo 20) = .across) ∧
    (Arrives .b (reportTo 0).bytes (reportTo 0) running running ∧
      destination running .b (reportTo 0) ≠ .across) ∧
    (Arrives .d (order 2 0x50 0 []).bytes (order 2 0x50 0 []) running running ∧
      (order 2 0x50 0 []).kind = .order ∧ (order 2 0x50 0 []).dest ≠ 0 ∧
      destination running .d (order 2 0x50 0 []) = .across) ∧
    (let f := order 9 0x50 0 []; let s := knowing .d; let t := settle (heard .d f s);
      Arrives .d f.bytes f s t ∧ f.dest ≠ 0 ∧ destination t .d f ≠ .across) := by
  refine ⟨⟨arrives ?_ rfl rfl ?_, ?_⟩, ⟨arrives ?_ rfl rfl ?_, ?_⟩, ⟨arrives ?_ rfl rfl ?_, ?_⟩,
    ⟨arrives ?_ rfl rfl ?_, ?_, ?_⟩, ⟨arrives ?_ rfl rfl ?_, ?_⟩, ⟨arrives ?_ rfl rfl ?_, ?_, ?_, ?_⟩,
    ⟨arrives_known ?_ ?_, ?_, ?_⟩⟩
  all_goals decide

/-- The D-port sends a report; then a safety, a voice, a forward frame waits, or none. -/
def sendingD (l : Link) : State := { running with link := { l with dTx := some (reportTo 1) } }

theorem witness_DPortTakesNextFrame :
    (let o := order 20 0x10 0 [];
      (∀ l ∈ [{ safety := [o] }, { voice := [o] }, { forward := [o] }, ({} : Link)],
        (sendingD l).link.dTx = some (reportTo 1) ∧
        (orderSent (reportTo 1) { sendingD l with link := { (sendingD l).link with dTx := none } }).link.dTx =
          none)) ∧ running.link.dTx = none := by decide

theorem witness_ReportsJoinAndLeaveTheirQueue :
    (let a : Report := ⟨true, .station .silent 2 .d⟩; let r : Report := ⟨false, .station .recovered 2 .d⟩;
      table110.link.bTx ≠ none ∧
      table110.reports = [⟨false, .station .recovered 1 .d⟩] ++ a :: [⟨false, .station .recovered 3 .d⟩] ∧
      (∀ x ∈ [(⟨false, .station .recovered 1 .d⟩ : Report)], x.alarm = false) ∧
      (∀ x ∈ [r], x.alarm = false) ∧ ({} : Link).turn = .report ∧
      table110.link.dToB ≠ [] ∧
      (List.replicate 31 r).length < 32 ∧ (List.replicate 32 r).length = 32 ∧
      (List.replicate 31 a ++ r :: []).length = 32 ∧ (∀ x ∈ List.replicate 32 a, x.alarm = true)) := by
  decide

theorem witness_TransmitQueuesAdmitAndDisplace :
    (let o := order 20 0x10 0 []; let v := reportTo 20;
      (List.replicate 15 o).length < 16 ∧ (List.replicate 16 o).length = 16 ∧
      (List.replicate 15 o ++ v :: []).length = 16 ∧ (∀ x ∈ List.replicate 15 o, x.kind = .order) ∧
      v.kind ≠ .order ∧ o.dest ≠ 0 ∧ (List.replicate 7 o).length < 8 ∧ 8 ≤ (List.replicate 8 o).length ∧
      (List.replicate 3 v).length < 4 ∧ 4 ≤ (List.replicate 4 v).length ∧
      (sendingD {}).link.dTx ≠ none ∧ table110.link.bTx ≠ none) := by decide

theorem witness_SilenceIsDeclared :
    (let s : State := { running with link := { bridge := .heard, silenceDue := true } };
      s.link.bridge = .heard ∧ s.link.silenceDue = true) ∧
    (let s : State := { running with stations := [(9, { station9 .d with count := 10 })] };
      (getStation s 9).entry = some ⟨.d, 10⟩ ∧ (getStation s 9).state = .online ∧
      (10 : Nat) ≤ (getStation s 9).count) := by decide

/-- A request with tag 3. -/
def ask (b : ReqBody) : Request := { tag := 3, fence := false, more := false, body := b }
/-- The part with a request at the head of its manage queue. -/
def asked (b : ReqBody) : State := { running with manage := [ask b] }

theorem witness_ForceAndReleasePoint :
    (asked (.forcePoint 511 7)).manage = ask (.forcePoint 511 7) :: [] ∧
    (asked (.forcePoint 512 7)).manage = ask (.forcePoint 512 7) :: [] ∧
    (let s := { asked (.releasePoint 5) with points := [(5, pt 1 .forced)] };
      s.manage = ask (.releasePoint 5) :: [] ∧ (getPoint s 5).quality = .forced) ∧
    (getPoint running 5).quality ≠ .forced ∧
    (pt 1 .forced).value ≠ (getPoint running 5).value ∧
    (getPoint running 5).value = (getPoint running 5).value := by decide

/-- Point 5 stands FORCED through a 100 ms tick. -/
theorem witness_ForcedPointStandsUntilReleased :
    (let s : State := { running with points := [(511, pt 1 .forced)] };
      endsForcing .tick100Ms = false ∧ exec .tick100Ms s = .next (settle (tick100 s)) ∧
      (getPoint s 511).quality = .forced) :=
  ⟨by decide, rfl, by decide⟩

theorem witness_FieldPointsKeptByOtherCommands :
    Instr.tick100Ms.wf = true ∧ touchesFieldPoints .tick100Ms = false ∧
      exec .tick100Ms running = .next (settle (tick100 running)) := ⟨by decide, by decide, rfl⟩

/-! ## Witnesses: orders -/

/-- A term on point 5. -/
def term5 (p : StalePolicy) : Term := ⟨some 5, 0xFFFF, .ge, 1, p⟩
def termNone : Term := ⟨none, 0, .never, 0, .asFalse⟩

theorem witness_TermFollowsQualityAndPolicy :
    termNone.point = none ∧ (∀ p, (term5 p).point = some 5) ∧ (getPoint running 5).quality = .never ∧
    (∀ q ∈ [Quality.stale, .fresh, .forced],
      (getPoint { running with points := [(5, pt 1 q)] } 5).quality = q) := by
  refine ⟨rfl, fun _ => rfl, ?_⟩; decide

/-- A rule for DOOR_OPEN to station 21 that passes at the indices of T1. -/
def ruleOpen (t1 : Word16) (v : FalseVerdict) : Rule :=
  { origin := none, dest := some 21, code := some 0x11, devLow := 0, devHigh := 15, t0 := term5 .asFalse
    t1 := termNone, t2 := termNone, t3 := termNone, tt1 := t1, tt0 := 0, selector := none
    verdict := v, holdLimit := 20, notify := true }
/-- The part with rule 3 and point 5 FRESH. -/
def ruled (r : Rule) : State := { running with rules := [(3, r)], points := [(5, pt 1 .fresh)] }

theorem witness_RuleLookupAndSelectedBit :
    (ruleOpen 2 .hold).selector = none ∧ rule12.selector = some (220, 0) ∧
    (getPoint (case39 (pt 1 .fresh) (pt 1 .fresh) (pt 1 .fresh) (pt 1 .fresh)) 220).quality = .fresh ∧
    (getPoint (case39 (pt 1 .fresh) (pt 1 .fresh) (pt 1 .fresh) (pt 1 .stale)) 220).quality = .stale ∧
    lookupRule (ruled (ruleOpen 2 .hold)) .b (order 21 0x11 15 []) = some (3, ruleOpen 2 .hold) ∧
    lookupRule (ruled (ruleOpen 2 .hold)) .b (order 21 0x11 16 []) = none := by decide

theorem witness_PassedStationOrderIsForwarded :
    (∀ code ∈ [0x10, 0x11, 0x12], let f := order 21 code 3 [];
      parseFrame f.bytes = some f ∧ f.kind = .order ∧ f.dest ≠ 0 ∧ f.code = code ∧
      destination running .b f = .across ∧ modeAllows running.mode f = true ∧
      gateBars running f = false) ∧ running.link.forward.length < 16 ∧
    (let f := order 9 0x10 3 []; let t := settle (heard .b f (knowing .b));
      Arrives .b f.bytes f (knowing .b) t ∧ destination t .b f = .near) :=
  ⟨by decide, by decide, arrives_known (by decide) (by decide), by decide⟩

/-- The premises of the statement about a passed DOOR_OPEN hold together. -/
theorem witness_passed_door_open :
    Arrives .b (order 21 0x11 3 []).bytes (order 21 0x11 3 []) running running ∧
      PassesJudgement (order 21 0x11 3 []) .b running :=
  ⟨arrives (by decide) rfl rfl (by decide),
   passesJudgement rfl rfl (by decide) (by decide) (by decide)⟩

/-- Zone 2 in a state, with a door 7 worked by station 21 as device 3. -/
def zoneCfg (alertTime : Nat) : ZoneCfg :=
  { parent := none, alertTime := alertTime, alertTemplate := none, program := none, reclose := 100
    policy := .conclude, trigger := termNone }
def zone (st : ZoneState) : Zone := { cfg := zoneCfg 300, state := st }
def doorCfg : DoorCfg := ⟨21, 3, 120, 121, 2, 1, 30, .fire⟩
def withZone (w : Zone) : State :=
  { running with zones := [(2, w)], doors := [(7, { cfg := doorCfg })] }

/-- MODE; NO_SUCH at the decode and of an unknown code; GATED; DEFAULT; RULE; HOLD_FULL; HELD. -/
theorem witness_JudgedOrderIsRefusedInSequence :
    (let f := order 21 0x11 3 [];
      Arrives .b f.bytes f running running ∧ f.kind = .order ∧ destination running .b f ≠ .near ∧
      modeAllows .safe f = false ∧ modeAllows .run f = true ∧
      gateBars (withZone (zone .secured)) f = true ∧ gateBars running f = false ∧
      lookupRule running .b f = none ∧
      lookupRule (ruled (ruleOpen 1 .refuse)) .b f = some (3, ruleOpen 1 .refuse) ∧
      (evalRule (ruled (ruleOpen 1 .refuse)) (ruleOpen 1 .refuse)).2 = false ∧
      ({ verdict := .refuse } : Settings).verdict = .refuse) ∧
    (let f := order 0 0x20 4 [];
      Arrives .d f.bytes f running running ∧ f.dest = 0 ∧ decodes f = false) ∧
    (let f := order 0 0x99 0 [];
      Arrives .b f.bytes f running running ∧ rowOf .b f = .unknownOrder) := by
  refine ⟨⟨arrives ?_ rfl rfl ?_, ?_⟩, ⟨arrives ?_ rfl rfl ?_, ?_⟩, arrives ?_ rfl rfl ?_, ?_⟩
  all_goals decide

/-- A held DOOR_OPEN under a rule. -/
def heldUnder (rule : Nat) (marked : Bool) : HoldEntry :=
  { frame := order 21 0x11 3 [], origin := .b, rule := rule, remaining := 20, eval := ⟨0, true, false⟩
    marked := marked }

theorem witness_FirstHeldOrderThatPassesIsReleased :
    (let s : State := { running with
        rules := [(3, ruleOpen 1 .hold), (4, ruleOpen 2 .hold)], points := [(5, pt 1 .fresh)]
        hold := [heldUnder 3 true, heldUnder 4 false] ++ heldUnder 4 true :: [heldUnder 4 true] };
      Tab.get? s.rules 4 = some (ruleOpen 2 .hold) ∧ (heldUnder 4 true).marked = true ∧
      (evalRule s (ruleOpen 2 .hold)).2 = true ∧ Tab.get? s.rules 3 = some (ruleOpen 1 .hold) ∧
      (evalRule s (ruleOpen 1 .hold)).2 = false) ∧
    (let s : State := { ruled (ruleOpen 1 .hold) with hold := [heldUnder 3 true] };
      s.hold.length ≤ 1 ∧ Tab.get? s.rules 3 = some (ruleOpen 1 .hold) ∧
      (evalRule s (ruleOpen 1 .hold)).2 = false) := by decide

/-- A rule that passes every order, for the given destination and code. -/
def ruleAny (dest code : Nat) : Rule :=
  { ruleOpen 2 .hold with dest := some dest, code := some code, devLow := 0, devHigh := 255 }
/-- An order held under rule 3, in a state of zone 2. -/
def holding (f : Frame) (st : ZoneState) (l : Link) : State :=
  { withZone (zone st) with
    rules := [(3, ruleAny f.dest.toNat f.code)], points := [(5, pt 1 .fresh)], link := l
    hold := [{ frame := f, origin := .b, rule := 3, remaining := 20, eval := ⟨0, true, false⟩
               marked := false }] }

/-- Gated; forwarded; refused QUEUE_FULL; delivered; refused by its target. -/
theorem witness_PassedHeldOrderIsReleased :
    (∀ f ∈ [order 21 0x11 3 [], order 0 0x30 2 [], order 0 0x32 2 []],
      let s := holding f .secured {};
      Tab.get? s.rules 3 = some (ruleAny f.dest.toNat f.code) ∧ (ruleAny f.dest.toNat f.code).reads ≠ [] ∧
      evalRule s (ruleAny f.dest.toNat f.code) = (⟨1, true, false⟩, true)) ∧
    (let f := order 21 0x11 3 [];
      let t (st : ZoneState) (l : Link) : State := { holding f st l with hold := [] };
      gateBars (t .closing {}) f = true ∧ gateBars (t .normal {}) f = false ∧ f.dest ≠ 0 ∧
      (t .normal {}).link.forward.length < 16 ∧
      16 ≤ (t .normal { forward := List.replicate 16 f }).link.forward.length) ∧
    (let f := order 0 0x30 2 []; let t : State := { holding f .secured {} with hold := [] };
      gateBars t f = false ∧ f.dest = 0 ∧ deliver f t = (t, none)) ∧
    (let f := order 0 0x32 2 []; let t : State := { holding f .secured {} with hold := [] };
      gateBars t f = false ∧ f.dest = 0 ∧ deliver f t = (t, some .state)) := by decide

theorem witness_EventsWithoutReceiversChangeNothing :
    NoReceivers { running with events := [[5]] } ∧
      ({ running with events := [[5]] } : State).events.length ≤ 1024 :=
  ⟨⟨rfl, rfl, rfl⟩, by decide⟩

/-! ## Witnesses: axes -/

/-- An axis record without zone, warning and coupling, with four idle comparators. -/
def axisCfg (c : Option Coupling) : AxisCfg :=
  { zone := none, low := -10000, high := 10000, vmax := 2000, trip := 100, policy := .keep
    warning := none, coupling := c, scale := 0
    comps := Vector.replicate 4 ⟨.cp, .never, 0, .any, .none⟩ }
/-- A configured axis in a state. -/
def axisIn (st : AxisState) : Axis := { cfg := some (axisCfg none), state := st }
/-- The part in RUN with axis 0 as given. -/
def withAxis (x : Axis) : State := setAxis 0 x running

/-- An axis whose feedback position stands at 1 has point 514 due; in reset form none of the three is. -/
theorem witness_AgesAndStaleLimitsOfFieldPoints :
    (let s : State := withAxis { axisIn .idle with fp := 1 };
      (getPoint s 514).value ≠ BitVec.ofNat 16 ((getAxis s 0).scaled (getAxis s 0).fp)) ∧
    (∀ k ∈ [2, 3, 5], (getPoint running (512 + k)).quality ≠ .never ∧
      (getPoint running (512 + k)).value = 0) ∧
    (getAxis running 0).scaled (getAxis running 0).fp = 0 ∧ axisSpeed running (getAxis running 0) = 0 ∧
    (getAxis running 0).scaled (getAxis running 0).latchFP = 0 ∧
    (let s : State := { running with pointMap := [(0, ⟨9, 0, 5, 2, .keep⟩)]
                                     points := [(5, { pt 1 .fresh with age := 20 })] };
      (getPoint s 5).quality = .fresh ∧ 10 * 2 ≤ (getPoint s 5).age) := by decide

/-- The arguments of Table 4-5's move of +6000, RELATIVE or (flag bit 0 clear) ABSOLUTE. -/
def moveArgs (flags : Byte) : List Byte :=
  [flags, 0x00, 0x17, 0x70, 0, 100, 0x05, 0xDC, 0x01, 0xF4, 0x01, 0x90, 0, 50, 0, 200, 0, 0]

/-- ABSOLUTE; RELATIVE behind a pending move, behind the current move, and at rest. -/
theorem witness_MoveJoinsTheMoveList :
    (let f := order 0 0x20 0 (moveArgs 0); let s := withAxis (axisIn .idle);
      Arrives .b f.bytes f s s ∧ PassesJudgement f .b s ∧
      decodeMove f.tag f.args = some { move45 with tag := 7, relative := false, dest := 0 } ∧
      getAxis s (axisOf f) = axisIn .idle ∧ (axisIn .idle).cfg = some (axisCfg none) ∧
      (axisIn .idle).pending.length < 2 ∧ (axisIn .idle).latch = false) ∧
    (let f := order 0 0x20 0 (moveArgs 1);
      let x : Axis := { axisIn .idle with pending := [] ++ [move45] };
      let y : Axis := { axisIn .moving with current := some (run45 100000 0) };
      Arrives .b f.bytes f (withAxis x) (withAxis x) ∧ Arrives .b f.bytes f (withAxis y) (withAxis y) ∧
      PassesJudgement f .b (withAxis x) ∧ PassesJudgement f .b (withAxis y) ∧
      decodeMove f.tag f.args = some { move45 with tag := 7, dest := 0 } ∧
      (-10000 : Int) ≤ 6000 + 4000 ∧ (6000 : Int) + 4000 ≤ 10000) := by
  refine ⟨⟨arrives ?_ rfl rfl ?_, passesJudgement rfl rfl ?_ ?_ ?_, ?_⟩,
    arrives ?_ rfl rfl ?_, arrives ?_ rfl rfl ?_, passesJudgement rfl rfl ?_ ?_ ?_,
    passesJudgement rfl rfl ?_ ?_ ?_, ?_⟩
  all_goals decide

/-- The worked move of section 4.6 starts in ACCEL. -/
theorem witness_AxisGoStartsTheOldestMove :
    (let f := order 0 0x21 0 []; let s := withAxis (axisIn .idle);
      Arrives .b f.bytes f s s ∧ PassesJudgement f .b s ∧ f.args = [] ∧
      (getAxis s (axisOf f)).state = .idle ∧ (axisIn .idle).isFollower = false ∧
      (axisIn .idle).pending = []) ∧
    (let x : Axis := { axisIn .idle with pending := [move45], latch := true };
      followersOf (withAxis x) 0 = [] ∧ move45.dest ≠ x.cp ∧ x.cp < move45.dest ∧ x.inputs.upper = false ∧
      phaseDecision (run45 100000 0) .accel = .accel) ∧
    (let x (fp : Int) (i : LocalInputs) : Axis :=
        { axisIn .float with pending := [move45], latch := true, fp := fp, inputs := i };
      (x 6000 {}).state = .float ∧ (x 6000 {}).pending = [move45] ∧ move45.dest = (x 6000 {}).fp ∧
      followersOf (withAxis (x 0 { upper := true })) 0 = [] ∧ (x 0 { upper := true }).fp < move45.dest ∧
      (x 0 { upper := true }).inputs.upper = true ∧ move45.dest < (x 6001 { lower := true }).fp ∧
      (x 6001 { lower := true }).inputs.lower = true) := by
  refine ⟨⟨arrives ?_ rfl rfl ?_, passesJudgement rfl rfl ?_ ?_ ?_, ?_⟩, ?_⟩
  all_goals decide

/-- Every state of Table 4-8; above VS and at VS; slow and quick; a follower of axis 2. -/
theorem witness_AxisStopActsByState :
    (∀ b ∈ [(0 : Byte), 1], let f := order 0 0x22 0 [b];
      parseFrame f.bytes = some f ∧ f.args = [b] ∧ b ≤ 1 ∧ decodes f = true ∧
      modeAllows .run f = true ∧ ∀ st ∈ [AxisState.idle, .fault, .float, .moving, .stopping],
        (getAxis (withAxis (axisIn st)) (axisOf f)).state = st ∧
        gateBars (withAxis (axisIn st)) f = false ∧
        (getAxis (withAxis (axisIn st)) (axisOf f)).coupling = none) ∧
    (run45 1500000 0).vs < (run45 1500000 0).vacc / 1000 ∧
    (run45 100000 0).vacc / 1000 ≤ (run45 100000 0).vs ∧
    (getAxis (withAxis (follower 0 0)) 0).coupling = some ⟨2, 3, 8, false⟩ := by decide

theorem witness_axis_stop_arrives :
    let f := order 0 0x22 0 [0]; let s := withAxis (axisIn .moving);
    Arrives .b f.bytes f s s ∧ PassesJudgement f .b s := by
  refine ⟨arrives ?_ rfl rfl ?_, passesJudgement rfl rfl ?_ ?_ ?_⟩
  all_goals decide

/-- The braking distances 211 and 3012 of section 4.6: more remains, as much remains, and v at Vk. -/
theorem witness_ProfileFollowsItsPhases :
    (∃ bd : Int, bd = ⌈(max (((100 : ℕ) : ℚ) ^ 2 - ((50 : ℕ) : ℚ) ^ 2) 0) / (2 * ((400 : ℕ) : ℚ))⌉ +
      (200 : ℕ) + 0 + ⌈((100 : ℕ) : ℚ) / 1000⌉ ∧ bd < (6000 : ℕ) - ((min (0 / 1000) 6000 : ℕ) : Int)) ∧
    (run45 1500000 2988500).vk < (run45 1500000 2988500).vacc / 1000 ∧
    (run45 50000 5900000).vacc / 1000 ≤ (run45 50000 5900000).vk ∧
    (run45 1499500 0).vc * 1000 ≤ (run45 1499500 0).vacc + move45.acc ∧
    (run45 1499499 0).vacc + move45.acc < (run45 1499499 0).vc * 1000 ∧
    (run45 50400 0).vacc ≤ (run45 50400 0).vk * 1000 + (run45 50400 0).dec ∧
    (run45 50401 0).vk * 1000 + (run45 50401 0).dec < (run45 50401 0).vacc := by
  refine ⟨⟨_, rfl, ?_⟩, by decide⟩
  have h1 : ⌈(max (((100 : ℕ) : ℚ) ^ 2 - ((50 : ℕ) : ℚ) ^ 2) 0) / (2 * ((400 : ℕ) : ℚ))⌉ = 10 := by
    rw [Int.ceil_eq_iff]; norm_num
  have h2 : ⌈((100 : ℕ) : ℚ) / 1000⌉ = 1 := by rw [Int.ceil_eq_iff]; norm_num
  rw [h1, h2]; decide

theorem witness_PositionStepEmitsWholeCounts :
    runningFollowers (withAxis (axisIn .moving)) 0 = [] ∧ (4000 : Nat) ≤ 4000 := by decide

theorem witness_AxisUpdateRunsItsStages :
    ∀ st ∈ [AxisState.disabled, .idle, .float, .moving],
      ((axisIn st).takeInputs {}).1 = axisIn st ∧ ((axisIn st).takeInputs {}).2 = false := by decide

theorem witness_FeedbackCountsOnlyInTheOwnUpdate :
    countsAxis 0 .tick100Ms = false ∧ countsAxis 0 (.axisUpdate 1 {}) = false ∧
      exec .tick100Ms running = .next (settle (tick100 running)) := ⟨by decide, by decide, rfl⟩

theorem witness_FaultEntryEmptiesTheAxis :
    (getAxis (enterFault 0 .trip (withAxis (axisIn .moving))) 0).state = .fault := by decide

/-- Sixteen leader counts carry the follower of Table 5-4 from 0 to 6. -/
theorem witness_CouplerTakesItsShareOfCounts :
    let s := setAxis 3 (follower 0 0) (setAxis 2 (axisIn .moving) running);
    (2 : AxisId) ≠ 3 ∧ runningFollowers s 2 = [3] ∧ (getAxis s 3).run = some ⟨1, true, 0⟩ ∧
    (getAxis s 3).cfg = (follower 0 0).cfg ∧ (3 : Nat) ≤ 8 ∧
    (getAxis s 3).cp + ((0 + 16 * 3) / 8 : Nat) ≤ 1000 := by decide

theorem witness_PartnerAnnouncementStopsTheLeader :
    ∀ st ∈ [PartnerStop.slowComparator, .quickComparator, .endLimit, .followerFault],
      let m : PartnerMsg := ⟨2, 3, st⟩;
      let s : State := { running with partner := [⟨1, 0, .endLimit⟩] ++ m :: [] };
      s.partner = [⟨1, 0, .endLimit⟩] ++ m :: [] ∧
      (∀ q ∈ [(⟨1, 0, .endLimit⟩ : PartnerMsg)], q.target ≠ 2) ∧ m.target = 2 ∧ m.stop = st := by decide

/-- Axis 2 with an idle follower, axis 3, that names a warning call template. -/
def coupled (x : Axis) : State :=
  { running with
    axes := (running.axes.set 2 x).set 3 { follower 0 0 with
      state := .idle, run := none
      cfg := (follower 0 0).cfg.map (fun c => { c with warning := some 10 }) }
    templates := [(10, ⟨3, .voice 1, 0xF, false, 2, 48⟩)] }

/-- A start with a follower that is not in FAULT. -/
theorem witness_start_with_follower :
    let x : Axis := { axisIn .idle with pending := [move45], latch := true };
    followersOf (coupled x) 2 = [3] ∧ (getAxis (coupled x) 3).state = .idle ∧ move45.dest ≠ x.cp ∧
      x.inputs.upper = false ∧ (getAxis (coupled x) 3).coupling = some ⟨2, 3, 8, false⟩ := by decide

/-- R102, R154: a follower's run that begins anew in the event its last run ended asks for its warning
call, which has ended before. -/
theorem test_new_run_asks_for_its_warning_call :
    let c : Current := { run45 100000 0 with dist := 0 };
    let x : Axis := { axisIn .moving with current := some c, pending := [move45], latch := true };
    let s : State := modifyAxis 3 (fun y => { y with state := .moving, run := some ⟨1, true, 0⟩ }) (coupled x);
    (s.calls.map (·.starter), (finishMove 2 .done none .idle s).calls.map (·.starter)) =
      ([], [.axis 3]) := by decide

/-- R101: a LAND move that arrives on the contact rests in FLOAT with FE 0, whatever CP and FP. -/
theorem test_landed_leaves_fe_zero :
    let c : Current := { run45 100000 0 with dist := 0, move := { move45 with land := true } };
    let x : Axis := { axisIn .moving with current := some c, phase := .creep, inputs := { contact := true }, fp := 9 };
    let y := getAxis (errorStage 0 (motionStage 0 (withAxis x))) 0;
    (y.state, y.lastOutcome, y.fe, decide (y.cp = y.fp)) = (.float, some .landed, 0, false) := by decide

/-- What each supervision check acts on, and what it passes over. -/
theorem witness_supervision_checks :
    (let x : Axis := { axisIn .moving with
        inputs := { driveFault := true, upper := true, contact := true }, fe := -101
        current := some { run45 100000 0 with move := { move45 with land := true } }, phase := .creep };
      x.inputs.driveFault = true ∧ x.direction = some true ∧ x.inputs.upper = true ∧
      (100 : Nat) < x.fe.natAbs ∧ x.coupling = none ∧ x.inputs.contact = true) ∧
    ({ axisIn .fault with cause := some .trip } : Axis).cause = some .trip ∧
    ({ axisIn .stopping with stop := some { outcome := .gated } } : Axis).stop =
      some { outcome := .gated } ∧
    (follower 0 0).direction = some true ∧ (follower 0 0).coupling ≠ none ∧
    ((axisCfg none).comps[(0 : Fin 4)]).cond.holdsInt 0 0 = false ∧
    ((axisIn .idle).prev[(0 : Fin 4)]) = false := by decide

theorem witness_follower_tells_leader :
    (getAxis (withAxis (follower 0 0)) 0).coupling = some ⟨2, 3, 8, false⟩ := by decide

theorem witness_AxisClearLeavesFault :
    let f := order 0 0x23 0 []; let s := withAxis { axisIn .fault with cause := some .trip };
    Arrives .b f.bytes f s s ∧ PassesJudgement f .b s ∧ (getAxis s (axisOf f)).state = .fault ∧
      (getAxis s (axisOf f)).inputs.driveFault = false := by
  refine ⟨arrives ?_ rfl rfl ?_, passesJudgement rfl rfl ?_ ?_ ?_, ?_⟩
  all_goals decide

/-! ## Witnesses: doors and zones -/

/-- The proofs of door 7: closed at point 120, open at point 121. -/
def proofs (closed opened : Point) : State :=
  { withZone (zone .normal) with points := [(120, closed), (121, opened)] }

/-- Closed by proof, open by proof, both absent, both present, one lost; with and without a jam mark. -/
theorem witness_DoorStateFollowsItsProofs :
    (∀ a b : Word16, getPoint (proofs (pt a .fresh) (pt b .forced)) 120 = pt a .fresh ∧
      getPoint (proofs (pt a .fresh) (pt b .forced)) 121 = pt b .forced) ∧
    (∀ a b : Word16, getPoint (proofs (pt a .stale) (pt b .fresh)) 120 = pt a .stale) ∧
    ({ cfg := doorCfg, jam := true } : Door).jam = true ∧ ({ cfg := doorCfg } : Door).jam = false :=
  ⟨fun _ _ => ⟨rfl, rfl⟩, fun _ _ => rfl, rfl, rfl⟩

theorem witness_DoorOrdersAreSeenAndLimited :
    (∀ code ∈ [0x10, 0x11], (order 21 code 3 []).kind = .order ∧
      (order 21 code 3 []).device = doorCfg.device ∧ (order 21 code 3 []).code = code ∧
      (order 21 code 3 []).dest.toNat = doorCfg.station ∧ (order 63 code 3 []).dest = 63) ∧
    (withZone (zone .normal)).doors = [(7, { cfg := doorCfg })] ∧
    closedByProof (proofs (pt 1 .fresh) (pt 0 .fresh)) doorCfg = true ∧
    closedByProof (proofs (pt 0 .fresh) (pt 0 .fresh)) doorCfg = false ∧
    openByProof (proofs (pt 0 .fresh) (pt 1 .fresh)) doorCfg = true ∧
    openByProof (proofs (pt 0 .fresh) (pt 0 .fresh)) doorCfg = false ∧
    (∀ st ∈ [DoorState.closing, .isOpen, .unknown],
      let x : Door := { cfg := doorCfg, state := st, inFlight := .close, remaining := 0 };
      let s : State := { running with doors := [(7, x)] };
      Tab.get? s.doors 7 = some x ∧ x.inFlight = .close ∧ x.remaining = 0) := by decide

/-- Doors 7 and 8 of device 3 at stations 21 and 22, door 9 of device 4. -/
def threeDoors : State :=
  { running with doors := [(7, { cfg := doorCfg }), (8, { cfg := { doorCfg with station := 22 } }),
      (9, { cfg := { doorCfg with device := 4 } })] }

/-- A group order to 63 reaches doors 7 and 8; an order to station 22 reaches door 8 alone. -/
theorem witness_group_order_reaches_doors :
    (∀ code ∈ [0x10, 0x11], (order 63 code 3 []).kind = .order ∧ (order 63 code 3 []).code = code ∧
      (order 63 code 3 []).dest = 63 ∧ (order 63 code 3 []).device = doorCfg.device) ∧
    (order 22 0x10 3 []).dest.toNat = 22 ∧ (order 21 0x12 3 []).code = 0x12 ∧
    Tab.get? threeDoors.doors 7 = some { cfg := doorCfg } ∧
    Tab.get? threeDoors.doors 9 = some { cfg := { doorCfg with device := 4 } } ∧
    (threeDoors.doors.map (fun e => (orderSent (order 63 0x10 3 []) threeDoors |>.doors |>
      fun l => (Tab.get? l e.1).map (·.inFlight)))) = [some .close, some .close, some .none] := by decide

/-- A change of state, of the jam mark, of the disagreement, and none. -/
theorem witness_door_settles :
    (let n (s : State) (x : Door) := (deriveDoor s x);
      (n (proofs (pt 0 .fresh) (pt 1 .fresh)) { cfg := doorCfg, state := .closed }).state = .isOpen ∧
      (n (proofs (pt 0 .fresh) (pt 0 .fresh)) { cfg := doorCfg, jam := true }).state = .jammed ∧
      (n (proofs (pt 1 .fresh) (pt 1 .fresh)) { cfg := doorCfg }).disagree = true ∧
      (n (proofs (pt 1 .fresh) (pt 0 .fresh)) { cfg := doorCfg, state := .closed }).state = .closed) := by
  decide

theorem threeDoors_canonical : Canonical threeDoors := by
  constructor <;> decide

/-- A zone order of a code arrives and passes; the zone stands in a state. -/
theorem zone_order_passes (f : Frame) (st : ZoneState) (h1 : parseFrame f.bytes = some f)
    (h2 : f.src.toNat ≠ 1) (h3 : decodes f = true) (h4 : gateBars (withZone (zone st)) f = false) :
    Arrives .b f.bytes f (withZone (zone st)) (withZone (zone st)) ∧
      PassesJudgement f .b (withZone (zone st)) :=
  ⟨arrives h1 rfl rfl h2, passesJudgement rfl rfl rfl (fun _ => h3) h4⟩

theorem witness_ZoneAlertOrderEntersAlert :
    (∀ st ∈ [ZoneState.normal, .secured], let f := order 0 0x30 2 [];
      Arrives .b f.bytes f (withZone (zone st)) (withZone (zone st)) ∧
      PassesJudgement f .b (withZone (zone st)) ∧
      Tab.get? (withZone (zone st)).zones f.device = some (zone st)) ∧
    (zone .normal).cfg.alertTime ≠ 0 ∧ ({ cfg := zoneCfg 0 } : Zone).cfg.alertTime = 0 ∧
    (zone .secured).state ≠ .normal := by
  refine ⟨fun st _ => ?_, by decide⟩
  exact ⟨(zone_order_passes _ st (by decide) (by decide) (by decide) rfl).1,
    (zone_order_passes _ st (by decide) (by decide) (by decide) rfl).2, rfl⟩

theorem witness_ZoneCloseNowEntersClosing :
    (∀ st ∈ [ZoneState.normal, .alert, .secured], let f := order 0 0x31 2 [];
      Arrives .b f.bytes f (withZone (zone st)) (withZone (zone st)) ∧
      PassesJudgement f .b (withZone (zone st)) ∧
      Tab.get? (withZone (zone st)).zones f.device = some (zone st)) ∧
    (zone .normal).cfg.program = none ∧ levelBelow (withZone (zone .normal)) [2] [2] = [] := by
  refine ⟨fun st _ => ?_, by decide⟩
  exact ⟨(zone_order_passes _ st (by decide) (by decide) (by decide) rfl).1,
    (zone_order_passes _ st (by decide) (by decide) (by decide) rfl).2, rfl⟩

theorem witness_ZoneCancelAndRelease :
    (∀ code ∈ [0x32, 0x33], ∀ st ∈ [ZoneState.alert, .secured, .incomplete, .normal],
      let f := order 0 code 2 [];
      Arrives .b f.bytes f (withZone (zone st)) (withZone (zone st)) ∧
      PassesJudgement f .b (withZone (zone st)) ∧ f.args = [] ∧ f.code = code ∧
      Tab.get? (withZone (zone st)).zones f.device = some (zone st)) ∧
    evalTerm running termNone = false ∧ parentShut running (zone .secured) = false := by
  refine ⟨fun code hc st _ => ?_, by decide⟩
  simp only [List.mem_cons, List.not_mem_nil, or_false] at hc
  rcases hc with rfl | rfl
  all_goals
    exact ⟨(zone_order_passes _ st (by decide) (by decide) (by decide) rfl).1,
      (zone_order_passes _ st (by decide) (by decide) (by decide) rfl).2, rfl, rfl, rfl⟩

/-- Zone 2 in a state, its trigger a term on point 5, nested in zone 1. -/
def premises (st outer : ZoneState) (p5 : Word16) : State :=
  { running with
    points := [(5, pt p5 .fresh)]
    zones := [(1, { cfg := zoneCfg 0, state := outer }),
      (2, { cfg := { zoneCfg 300 with parent := some 1, trigger := term5 .asFalse }, state := st })] }

/-- ZONE_CANCEL in ALERT with the trigger true; ZONE_RELEASE with the trigger true, with the parent's gate
shut, and with every premise met. -/
theorem witness_zone_premises :
    (let f := order 0 0x32 2 []; let s := premises .alert .normal 1;
      Arrives .b f.bytes f s s ∧ PassesJudgement f .b s) ∧
    (∀ st ∈ [ZoneState.secured, .incomplete], let f := order 0 0x33 2 [];
      parseFrame f.bytes = some f ∧ decodes f = true ∧ f.args = [] ∧
      ∀ q ∈ [(ZoneState.normal, (1 : Word16)), (.closing, 0), (.normal, 0)],
        let s := premises st q.1 q.2;
        (Tab.get? s.zones f.device).map (·.state) = some st ∧ modeAllows s.mode f = true ∧
        gateBars s f = false ∧ evalTerm s (term5 .asFalse) = decide (q.2 = 1) ∧
        gateShut s 1 = decide (q.1 = .closing)) := by
  refine ⟨⟨arrives ?_ rfl rfl ?_, passesJudgement rfl rfl ?_ ?_ ?_⟩, ?_⟩
  all_goals decide

/-- Zone 2 in CLOSING, its program standing at a wait. -/
def waiting (w : StepWait) : State :=
  { running with
    zones := [(2, { cfg := { zoneCfg 300 with program := some 4 }, state := .closing
                    cursor := some 1, wait := w })]
    programs := [(4, [.await 1 30, .finish])] }

theorem witness_ZoneTimersAndProgramWaitsEnd :
    (Tab.get? (withZone (zone .alert)).zones 2 = some (zone .alert) ∧ (zone .alert).timer = 0) ∧
    ({ zone .secured with reclose := some 0 } : Zone).reclose = some 0 ∧
    (∀ w ∈ [StepWait.await 0, .pause10 0, .pause100 0,
        .order (order 21 0x10 3 []) true],
      (Tab.get? (waiting w).zones 2).map (·.wait) = some w ∧
      (Tab.get? (waiting w).zones 2).bind (·.cursor) = some 1 ∧
      (Tab.get? (waiting w).programs 4).bind (·[0]?) = some (.await 1 30)) ∧
    running.link.safety.length < 8 ∧ 8 ≤ (List.replicate 8 (order 21 0x10 3 [])).length ∧
    ({ cfg := doorCfg, state := .closed } : Door).state = .closed ∧
    ({ cfg := doorCfg } : Door).state ≠ .closed ∧ ({ cfg := doorCfg } : Door).inFlight ≠ .close := by
  decide

/-- The state of zone 2's program at an AWAIT of rank 1 with its door's point as given. -/
def awaiting (p : Point) : State :=
  { waiting (.await 9) with doors := [(7, { cfg := doorCfg })], points := [(551, p)] }

/-- The door CLOSED, JAMMED, and OPEN or not FRESH; an event that names no trigger and no door. -/
theorem witness_await_examined :
    (∀ q ∈ [(pt 2 .fresh, true), (pt 6 .fresh, true), (pt 1 .fresh, false), (pt 2 .stale, false)],
      let s := awaiting q.1;
      (Tab.get? s.zones 2).map (·.wait) = some (.await 9) ∧ doorCfg.zone = 2 ∧ doorCfg.rank = 1 ∧
      awaitOver s 2 1 = q.2 ∧ getPoint s (544 + 7) = q.1) ∧
    (∀ e ∈ (awaiting (pt 2 .fresh)).zones, e.2.cfg.trigger.point = none) ∧
    (∀ n ∈ [5], n < 544 ∨ 639 < n) ∧ (∀ e ∈ (awaiting (pt 2 .fresh)).doors, e.1 ≤ 95) := by decide

/-- R24, R136, R138: the door's change event itself ends the AWAIT, and the program and zone with it. -/
theorem test_await_ends_within_the_event :
    ((settle { awaiting (pt 2 .fresh) with events := [[551]] }).zones.map
      (fun e => (e.2.state, e.2.cursor))) = [(.secured, none)] := by decide

/-- A CLOSE step stands for room at door 7; the safety queue has room, or holds 8 frames. -/
theorem witness_close_step_reoffer :
    ∀ n ∈ [0, 8],
      let s : State := { waiting (.closeFrom 7 true) with
        programs := [(4, [.close 1, .finish])], doors := [(7, { cfg := doorCfg })]
        link := { safety := List.replicate n (order 21 0x10 3 []) } };
      (Tab.get? s.zones 2).map (·.wait) = some (.closeFrom 7 true) ∧
      (Tab.get? s.programs 4).bind (·[0]?) = some (.close 1) ∧
      s.doors.filter (fun e => decide (e.2.cfg.zone = 2) && decide (e.2.cfg.rank = 1) && decide (7 ≤ e.1)) =
        s.doors ∧
      (offerCloses s.doors s).2 = if n = 0 then none else some 7 := by decide

/-- A zone four deep: its gate is shut by the zone at the top. -/
theorem witness_GateIsShutByStateOrParent :
    let nest (st : ZoneState) (p : Option Nat) : Zone := { cfg := { zoneCfg 0 with parent := p }, state := st };
    let s : State := { running with zones := [(1, nest .secured none), (2, nest .normal (some 1)),
      (3, nest .normal (some 2)), (4, nest .normal (some 3))] };
    (Tab.get? s.zones 4).isSome = true ∧ (ancestors s.zones Config.zoneFuel 4).length = 3 ∧
      gateShut s 4 = true := by decide

/-! ## Witnesses: calls -/

def template : Template :=
  { priority := 5, source := .voice 1, zones := 0xF, preChime := false, duration := 2, gain := 48 }
/-- A call that requests the audio zones of a set. -/
def callOf (number priority : Nat) (requested owned : ZoneSet) (st : CallState) : Call :=
  { number := number, template := 10, priority := priority, source := .voice 1, base := requested
    requested := requested, owned := owned, state := st, chime := .finished, starter := .bridge 7 9
    remaining := some 0 }
def calling (cs : List Call) : State := { running with templates := [(10, template)], calls := cs }

theorem witness_CallStartAndCallEnd :
    (∀ args ∈ [[], [(0 : Byte), 1, 2]], let f := order 0 0x40 10 args;
      Arrives .b f.bytes f (calling []) (calling []) ∧ PassesJudgement f .b (calling []) ∧
      Tab.get? (calling []).templates f.device = some template ∧ f.args = args) ∧
    (let f := order 0 0x41 21 []; let s := calling ([] ++ callOf 21 5 0xF 0xF .live :: []);
      Arrives .b f.bytes f s s ∧ PassesJudgement f .b s ∧ f.code = 0x41 ∧
      (callOf 21 5 0xF 0xF .live).number = f.device) := by
  refine ⟨fun args ha => ?_, arrives ?_ rfl rfl ?_, passesJudgement rfl rfl ?_ ?_ ?_, ?_, ?_⟩
  · simp only [List.mem_cons, List.not_mem_nil, or_false] at ha
    rcases ha with rfl | rfl
    all_goals
      exact ⟨arrives (by decide) rfl rfl (by decide),
        passesJudgement rfl rfl (by decide) (by decide) (by decide), by decide, by decide⟩
  all_goals decide

/-- A full call list: 15 calls of priority 5 behind one of priority 6, or 16 EMERGENCY calls. -/
def fullList (emergency : Bool) : List Call :=
  if emergency then List.replicate 16 (callOf 21 0 0xF 0xF .live)
  else [] ++ callOf 22 6 0xF 0xF .live :: List.replicate 15 (callOf 21 5 0xF 0xF .live)
def fullCalls (priority : Nat) (emergency : Bool) : State :=
  { calling (fullList emergency) with templates := [(10, { template with priority := priority })] }

/-- Refused for its priority, refused with EMERGENCY calls alone, displacing; a CALL_END of no call. -/
theorem witness_full_call_list :
    (∀ q ∈ [(5, false), (0, true), (0, false)],
      let f := order 0 0x40 10 []; let s := fullCalls q.1 q.2;
      parseFrame f.bytes = some f ∧ decodes f = true ∧ f.args = [] ∧ modeAllows s.mode f = true ∧
      gateBars s f = false ∧ 16 ≤ s.calls.length ∧
      Tab.get? s.templates f.device = some { template with priority := q.1 }) ∧
    (∀ c ∈ fullList true, c.priority = 0) ∧
    fullList false = [] ++ callOf 22 6 0xF 0xF .live :: List.replicate 15 (callOf 21 5 0xF 0xF .live) ∧
    (∀ d ∈ List.replicate 15 (callOf 21 5 0xF 0xF .live), d.priority < 6) ∧
    (∀ d ∈ fullList false, d.number ≠ 9) := by decide

/-- The last number 255 wraps to 1. -/
theorem witness_CallNumberIsTheNextFreeOne :
    ([callOf 1 5 1 1 .live].length ≤ 16 ∧ (255 : Nat) ≤ 255) ∧
      freeNumber [callOf 1 5 1 1 .live] 17 255 = 2 ∧ freeNumber [] 17 255 = 1 := by decide

/-- The better priority owns the shared zones, the other the rest. -/
theorem witness_BestCallOwnsEachAudioZone :
    ((recompute (calling [callOf 21 5 0xF 0 .waiting, callOf 22 1 0x3 0 .waiting])).calls.map (·.owned)) =
      [0xC, 0x3] := by decide

theorem witness_OwnershipKeptByEveryCommand :
    Owned (calling [callOf 21 5 0xF 0xC .live, callOf 22 1 0x3 0x3 .live]) ∧
      exec .tick100Ms (calling []) = .next (settle (tick100 (calling []))) := by
  refine ⟨?_, rfl⟩
  show assignOwners [] _ = _
  decide

theorem witness_CallTimersAct :
    (let c : Call := { callOf 21 5 0xF 0xF .chime with pos := 399 };
      (calling ([] ++ c :: [])).calls = [] ++ c :: [] ∧ c.state = .chime ∧ c.owned ≠ 0 ∧ c.pos = 399) ∧
    (let c : Call := { callOf 21 5 0xF 0xF .live with age := 1996 };
      c.state = .live ∧ c.source = .voice 1 ∧ (calling [c]).settings.sourceLost ≤ min 5000 (c.age + 4) ∧
      c.remaining = some 0) ∧
    (∀ b ∈ [callOf 22 1 0x3 0x3 .live] ++ ([] : List Call), b.number ≠ (callOf 21 5 0xF 0xF .live).number) := by
  decide

theorem witness_OutputSampleIsScaledTowardZero :
    (callOf 22 1 0x3 0x3 .live).priority ≤ 1 ∧ 2 ≤ (callOf 21 5 0xF 0xF .live).priority ∧
      Tab.get? (calling []).templates (callOf 21 5 0xF 0xF .live).template = some template := by decide

/-! ## Witnesses: management and modes -/

/-- A direct read; a fenced read and a queued request, with room and without; the wrong source; across. -/
theorem witness_ManageFrameIsServedOrQueued :
    (let s : State := { running with settings := { manager := 9, verdict := .pass } };
      ∀ f ∈ [manageFrom 9 0 10 0 [0], manageFrom 9 0 10 1 [0], manageFrom 9 0 5 0 [1]],
        parseFrame f.bytes = some f ∧ sideDiffers s .b f = false ∧ f.dest = 0 ∧
        f.src.toNat = (settle (heard .b f s)).settings.manager ∧
        (settle (heard .b f s)).manage.length < 16) ∧
    decodeManage [10, 3, 0, 0] = .request ⟨3, false, false, .readStatus 0⟩ ∧
    decodeManage [10, 3, 1, 0] = .request ⟨3, true, false, .readStatus 0⟩ ∧
    decodeManage [5, 3, 0, 1] = .request ⟨3, false, false, .setMode 1⟩ ∧
    (ReqBody.setMode 1).direct = false ∧ (ReqBody.readStatus 0).direct = true ∧
    16 ≤ (List.replicate 16 (ask (.setMode 1))).length ∧
    (let f := manageFrom 9 0 5 0 [1]; Arrives .b f.bytes f running running ∧
      f.src.toNat ≠ running.settings.manager) ∧
    (let f := manageFrom 9 20 5 0 [1]; Arrives .b f.bytes f running running ∧
      destination running .b f = .across) ∧
    decodeManage [10, 3] = .short ∧ decodeManage [99, 3, 0] = .unknown 99 3 ∧
    decodeManage [10, 3, 0] = .badLength 10 3 ∧
    (let f := manageFrom 9 9 5 0 [1];
      destination (settle (heard .b f (knowing .b))) .b f = .near ∧ f.dest ≠ 0) := by
  refine ⟨?_, ?_, ?_, ?_, ?_, ?_, ?_, ⟨arrives ?_ rfl rfl ?_, ?_⟩, ⟨arrives ?_ rfl rfl ?_, ?_⟩, ?_⟩
  all_goals decide

theorem witness_unread_manage_arrives :
    let f := manageFrom 9 0 99 0 [];
    let s : State := { running with settings := { manager := 9, verdict := .pass } };
    Arrives .b f.bytes f s (settle (heard .b f s)) ∧ decodeManage f.payload = .unknown 99 3 ∧
      f.src.toNat = (settle (heard .b f s)).settings.manager := by
  refine ⟨arrives_known ?_ ?_, ?_⟩
  all_goals decide

/-- At the ends of the ranges: the last part of a program, sixteen points up to 698, status 4. -/
theorem witness_ReadsAnswerFromTheState :
    indexOk 6 31 = true ∧ 64 * 2 < recordLength 6 ∧ recordLength 6 ≤ 64 * 3 ∧ indexOk 6 32 = false ∧
      683 + 16 ≤ 699 ∧ 699 < 684 + 16 := by decide

theorem witness_RequestAtTheHeadCompletes :
    (let bs : List Byte := [1, 32, 1];
      (asked (.writeEntry 8 23 0 bs)).manage = ask (.writeEntry 8 23 0 bs) :: [] ∧
      indexOk 8 23 = true ∧ writable 8 .run = true ∧ bs.length = recordLength 8 ∧
      (writeTable 8 23 bs running).2 = .ok) ∧
    (ask (.writeEntry 8 23 0 [])).more = false ∧
    ({ ask (.writeEntry 6 0 0 []) with more := true }).more = true ∧ indexOk 6 0 = true ∧
    (clearTable 8 23 running).2 = .ok ∧ (ask (.clearTravel 3)).body = .clearTravel (3 : AxisId).val ∧
    (ask (.clearTravel 4)).body = .clearTravel 4 := by decide

/-- A part above 0 with the staging record it continues; it fits, or is one byte too long. -/
theorem witness_staged_parts :
    (let g : Staging := { table := 6, index := 0, nextPart := 1, bytes := List.replicate 64 0 };
      let s : State := { asked (.writeEntry 6 0 1 [0]) with staging := some g };
      s.staging = some g ∧ s.manage = ask (.writeEntry 6 0 1 [0]) :: [] ∧
      (g.bytes ++ [0]).length ≤ recordLength 6) ∧
    recordLength 6 < (List.replicate (recordLength 6) (0 : Byte) ++ [0]).length ∧
    (List.replicate 64 (0 : Byte) ++ List.replicate (recordLength 6 - 64) 0).length = recordLength 6 ∧
    writable 6 .config = true ∧ indexOk 6 0 = true ∧ (1 : Nat) ≠ 0 ∧
    (asked (.writeEntry 6 0 1 [0])).staging = none := by decide

/-- A state in CONFIG whose tables hold a rule, an axis record and a program. -/
def tabled : State :=
  { withAxis (axisIn .idle) with
    mode := .config, rules := [(3, ruleOpen 2 .hold)], programs := [(4, [.close 1, .finish])] }

/-- A write with valid = yes is accepted in each of the tables 2, 3 and 6; with valid = no; and in the
tables 9 and 10. The clears are accepted. -/
theorem witness_accepted_writes :
    (∀ q ∈ [(2, 3), (3, 0), (6, 4)], let bs := readBack tabled q.1 q.2;
      indexOk q.1 q.2 = true ∧ bs.length = recordLength q.1 ∧ bs.head? = some 1 ∧
      (writeTable q.1 q.2 bs tabled).2 = .ok ∧ (clearTable q.1 q.2 tabled).2 = .ok) ∧
    (let bs := List.replicate (recordLength 2) (0 : Byte);
      bs.head? = some 0 ∧ (writeTable 2 3 bs tabled).2 = .ok) ∧
    (∀ q ∈ [(9, [(1 : Byte)]), (10, [1, 1, 10, 16, 7, 208])],
      indexOk q.1 0 = true ∧ q.2.length = recordLength q.1 ∧ (writeTable q.1 0 q.2 tabled).2 = .ok ∧
      (clearTable q.1 0 tabled).2 = .ok) := by decide

/-- The old target of entry 0 is FRESH, or FORCED. -/
theorem witness_map_entry_target :
    Tab.get? mapped.pointMap 0 = some ⟨9, 0, 5, 2, .keep⟩ ∧ (getPoint mapped 5).quality = .never ∧
    (let s := { mapped with points := [(5, pt 1 .forced)] }; (getPoint s 5).quality = .forced) := by
  decide

/-- A NORMAL, an ALERT and a CLOSING zone; a call of a CLOSING zone; a door of usable points. -/
theorem witness_restart_pieces :
    (restartBegin (asked .restart)).rebuilding ≠ none ∧
    (∀ st ∈ [ZoneState.normal, .secured, .incomplete, .alert, .closing],
      (Tab.get? (withZone (zone st)).zones 2).map (·.state) = some st) ∧
    (zone .closing).cfg.policy = .conclude ∧ (zone .closing).cfg.program = none ∧
    ((Tab.get? (waiting .none).zones 2).map (fun w => w.cfg.program)) = some (some 4) ∧
    (∃ e ∈ ownDoors (withZone (zone .closing)) 2,
      doorClosed (withZone (zone .closing)) e.1 = false) ∧
    ownDoors (waiting .none) 2 = [] ∧
    doorCfg.closedPoint ≤ 511 ∧ doorCfg.openPoint ≤ 511 := by decide

theorem witness_RestartRebuildsTheBlocks :
    (asked .restart).manage = ask .restart :: [] ∧ (ask .restart).body = .restart := by decide

/-- Class LINK_ERRORS active, with response SAFE or GO ON. -/
def faulty (r : Response) (m : Mode) : State :=
  setClass .linkErrors { active := true, timer := 5 }
    { running with mode := m, responses := Vector.replicate 8 r }

theorem witness_SetModeFollowsTheModeThatStands :
    (∀ m ∈ [0, 1, 2, 3], (asked (.setMode m)).manage = ask (.setMode m) :: []) ∧
    (1 : Nat) = Mode.run.code ∧ running.mode = .run ∧
    (∀ c, (getClass running c).active = true → responseTo running c = .goOn) ∧
    ((getClass (faulty .safe .safe) .linkErrors).active = true ∧
      responseTo (faulty .safe .safe) .linkErrors = .safe) ∧
    configAllowed running = true ∧ configAllowed (withZone (zone .alert)) = false ∧
    validate running = none ∧
    validate { running with doors := [(7, { cfg := doorCfg })] } = some (4, 7) ∧
    safeClass (faulty .safe .config) = some .linkErrors ∧ validate (faulty .safe .config) = none := by
  refine ⟨by decide, by decide, by decide, ?_, by decide⟩
  intro c; cases c <;> decide

/-- A bad entry of each of the four tables; each of the CONFIG conditions broken. -/
theorem witness_validation_and_config :
    validate (withAxis { axisIn .idle with cfg := some { axisCfg none with zone := some 9 } }) = some (3, 0) ∧
    validate { running with zones := [(3, { cfg := { zoneCfg 0 with program := some 9 } })] } = some (5, 3) ∧
    validate { running with programs := [(4, [.branch termNone 1])] } = some (6, 4) ∧
    configAllowed (withAxis { axisIn .idle with pending := [move45] }) = false ∧
    configAllowed { running with calls := [callOf 21 0 1 1 .live] } = false ∧
    (∀ c ∈ FaultClass.all, responseTo (faulty .safe .run) c = .safe) := by decide

theorem witness_SafeEntryHoldsTheRamps :
    (getAxis (withAxis { axisIn .moving with latch := true }) 0).state ≠ .disabled ∧
    (∀ v ∈ [1500000, 100000],
      let x : Axis := { axisIn .moving with current := some (run45 v 0), pending := [move45] };
      (getAxis (withAxis x) 0).coupling = none ∧ x.current = some (run45 v 0) ∧
      x.cfg = some (axisCfg none)) ∧
    (run45 1500000 0).vs < (run45 1500000 0).vacc / 1000 ∧
    (run45 100000 0).vacc / 1000 ≤ (run45 100000 0).vs ∧ (axisCfg none).policy = .keep := by decide

theorem witness_HundredMillisecondTickCounts :
    (let s := setClass .linkErrors { active := true, timer := 0 } running;
      occurrenceFault .linkErrors = .linkErrors ∧ (getClass s .linkErrors).active = true ∧
      (getClass s .linkErrors).timer = 0) ∧ (getClass running .linkErrors).active = false ∧
    (getClass (faulty .goOn .run) .linkErrors).timer ≠ 0 := by decide

/-- An axis in FAULT by a trip makes AXIS_TRIP due to become active, with either response; a door with
both proofs and a jam mark makes two classes due. -/
theorem witness_tellings :
    (let s := withAxis { axisIn .fault with cause := some .trip };
      s.rebuilding = none ∧ (getClass s .axisTrip).active ≠ decide (0 < contributors s .axisTrip) ∧
      0 < contributors s .axisTrip ∧ s.mode = .run ∧ responseTo s .axisTrip = .goOn ∧
      responseTo { s with responses := Vector.replicate 8 .safe } .axisTrip = .safe ∧
      (getClass s .axisDrive).active = decide (0 < contributors s .axisDrive)) ∧
    (let s : State := { running with
        doors := [(7, { cfg := doorCfg, state := .jammed, jam := true, disagree := true })] };
      (getClass s .doorJammed).active ≠ decide (0 < contributors s .doorJammed) ∧
      (getClass s .doorSensor).active ≠ decide (0 < contributors s .doorSensor) ∧
      FaultClass.doorJammed.bit < FaultClass.doorSensor.bit ∧
      (s.mode ≠ .run ∨ (responseTo s .doorJammed = .goOn ∧ responseTo s .doorSensor = .goOn))) ∧
    (getClass running .linkErrors).active = false ∧
    (getClass (faulty .goOn .run) .linkErrors).active = true := by decide

/-! ## Witnesses: invariants -/

theorem running_bounded : Bounded running := by
  constructor <;> decide

theorem running_canonical : Canonical running := by
  constructor <;> decide

theorem witness_TablesChangeOnlyByTheirWrites :
    Canonical running ∧ writesTables .tick100Ms = false ∧
      exec .tick100Ms running = .next (settle (tick100 running)) := ⟨running_canonical, by decide, rfl⟩

theorem witness_CapacitiesKeptByEveryStep : Bounded running ∧ step running = .next running :=
  ⟨running_bounded, rfl⟩

theorem witness_CanonicalFormKeptByEveryStep :
    Canonical { running with pending := [.tick100Ms] } ∧
      step { running with pending := [.tick100Ms] } = .next (settle (tick100 running)) :=
  ⟨by constructor <;> decide, rfl⟩

end Sys2Proof.Tests
end

/-! # Proofs: the transmit queues (R11 to R16) -/

namespace Sys2Proof.Machine

open Sys2Proof

/-! ## The frame a full forward queue displaces -/

theorem takeFirst_eq_none {α : Type} {p : α → Bool} {l : List α} (h : ∀ y ∈ l, p y = false) :
    takeFirst p l = none := by
  cases ht : takeFirst p l with
  | none => rfl
  | some found =>
    obtain ⟨older, newer, rfl, -, hp, -⟩ := takeFirst_some ht
    have := h found.1 (by simp)
    simp [hp] at this

/-- The frame displaced is the oldest that is no ORDER. -/
theorem takeFirst_noOrder_append {orders rest : List Frame} {g : Frame}
    (ho : ∀ x ∈ orders, x.kind = .order) (hg : g.kind ≠ .order) :
    takeFirst (fun x => decide (x.kind ≠ .order)) (orders ++ g :: rest) = some (g, orders ++ rest) :=
  takeFirst_append orders rest g (fun x hx => by simp [ho x hx]) (by simp [hg])

/-- A queue of nothing but ORDER frames has no frame to displace. -/
theorem takeFirst_noOrder_eq_none {l : List Frame} (ho : ∀ x ∈ l, x.kind = .order) :
    takeFirst (fun x => decide (x.kind ≠ .order)) l = none :=
  takeFirst_eq_none (fun x hx => by simp [ho x hx])

/-! ## A busy transmitter takes no frame -/

theorem kickD_of_busy {s : State} (h : s.link.dTx ≠ none) : kickD s = s :=
  if_pos (Option.isSome_iff_ne_none.2 h)

theorem kickB_of_busy {s : State} (h : s.link.bTx ≠ none) : kickB s = s :=
  if_pos (Option.isSome_iff_ne_none.2 h)

/-! ## The D-port forward queue (R12) -/

section
variable {s : State} (f : Frame)

theorem offerOrder_of_room (h : s.link.forward.length < Config.forwardCap) :
    offerOrder f s =
      (kickD { s with link := { s.link with forward := s.link.forward ++ [f] } }, true) :=
  if_pos h

theorem offerOrder_of_full (h : Config.forwardCap ≤ s.link.forward.length) :
    offerOrder f s = (s, false) :=
  if_neg h.not_gt

theorem passOrder_of_full {f : Frame} (hf : f.dest ≠ 0)
    (h : Config.forwardCap ≤ s.link.forward.length) : passOrder f s = (s, some .queueFull) := by
  simp only [passOrder, if_neg hf, offerOrder_of_full f h]

theorem offerForward_of_room (h : s.link.forward.length < Config.forwardCap) :
    offerForward f s = kickD { s with link := { s.link with forward := s.link.forward ++ [f] } } :=
  if_pos h

theorem offerForward_displaces {orders rest : List Frame} {g : Frame}
    (h : Config.forwardCap ≤ s.link.forward.length) (hq : s.link.forward = orders ++ g :: rest)
    (ho : ∀ x ∈ orders, x.kind = .order) (hg : g.kind ≠ .order) :
    offerForward f s =
      kickD { s with link := { s.link with forward := orders ++ rest ++ [f] } } := by
  rw [offerForward, if_neg h.not_gt, hq, takeFirst_noOrder_append ho hg]

theorem offerForward_drops (h : Config.forwardCap ≤ s.link.forward.length)
    (ho : ∀ x ∈ s.link.forward, x.kind = .order) : offerForward f s = s := by
  rw [offerForward, if_neg h.not_gt, takeFirst_noOrder_eq_none ho]

/-! ## The D-to-B forward queue (R16) -/

theorem offerDToB_of_room (h : s.link.dToB.length < Config.dToBCap) :
    offerDToB f s = kickB { s with link := { s.link with dToB := s.link.dToB ++ [f] } } :=
  if_pos h

theorem offerDToB_displaces {orders rest : List Frame} {g : Frame}
    (h : Config.dToBCap ≤ s.link.dToB.length) (hq : s.link.dToB = orders ++ g :: rest)
    (ho : ∀ x ∈ orders, x.kind = .order) (hg : g.kind ≠ .order) :
    offerDToB f s = kickB { s with link := { s.link with dToB := orders ++ rest ++ [f] } } := by
  rw [offerDToB, if_neg h.not_gt, hq, takeFirst_noOrder_append ho hg]

theorem offerDToB_drops (h : Config.dToBCap ≤ s.link.dToB.length)
    (ho : ∀ x ∈ s.link.dToB, x.kind = .order) : offerDToB f s = s := by
  rw [offerDToB, if_neg h.not_gt, takeFirst_noOrder_eq_none ho]

/-! ## The safety queue and the voice queue (R13, R14) -/

theorem offerSafety_of_room (h : s.link.safety.length < Config.safetyCap) :
    offerSafety f s =
      (kickD { s with link := { s.link with safety := s.link.safety ++ [f] } }, true) :=
  if_pos h

theorem offerSafety_of_full (h : Config.safetyCap ≤ s.link.safety.length) :
    offerSafety f s = (s, false) :=
  if_neg h.not_gt

theorem offerVoice_of_room (h : s.link.voice.length < Config.voiceCap) :
    offerVoice f s = kickD { s with link := { s.link with voice := s.link.voice ++ [f] } } :=
  if_pos h

theorem offerVoice_of_full (h : Config.voiceCap ≤ s.link.voice.length) : offerVoice f s = s :=
  if_neg h.not_gt

end

/-- Settles O12: one rule per queue and branch of its offer, each cited at the capacity the manual
gives. -/
theorem transmitQueuesAdmitAndDisplace : Obligations.TransmitQueuesAdmitAndDisplace := by
  unfold Obligations.TransmitQueuesAdmitAndDisplace
  refine ⟨fun f s => ⟨?forwardRoom, ?orderFull, ?forwardDisplaces, ?forwardDrops, ?dToBRoom,
    ?dToBDisplaces, ?dToBDrops, kickD_of_busy, kickB_of_busy⟩,
    fun f s => ⟨offerSafety_of_room f, offerSafety_of_full f, offerVoice_of_room f,
      offerVoice_of_full f⟩⟩
  case forwardRoom => exact fun room => ⟨offerOrder_of_room f room, offerForward_of_room f room⟩
  case orderFull =>
    exact fun full => ⟨offerOrder_of_full f full.ge, fun hf => passOrder_of_full hf full.ge⟩
  case forwardDisplaces =>
    exact fun _ _ _ full hq ho hg => offerForward_displaces f full.ge hq ho hg
  case forwardDrops => exact fun full ho => offerForward_drops f full.ge ho
  case dToBRoom => exact offerDToB_of_room f
  case dToBDisplaces => exact fun _ _ _ full hq ho hg => offerDToB_displaces f full.ge hq ho hg
  case dToBDrops => exact fun full ho => offerDToB_drops f full.ge ho

end Sys2Proof.Machine

/-! # Proofs: rules and their evaluation (R47 to R50) -/

namespace Sys2Proof.Machine

open Sys2Proof

/-! ## The index (R49) -/

theorem evalTerm_of_none (s : State) {t : Term} (h : t.point = none) : evalTerm s t = false := by
  simp [evalTerm, h]

/-- The terms weigh 1, 2, 4 and 8 as they do in the manual's sum. -/
theorem ruleIndex_eq (s : State) (r : Rule) :
    ruleIndex s r =
      (if evalTerm s r.t0 then 1 else 0) + (if evalTerm s r.t1 then 2 else 0) +
      (if evalTerm s r.t2 then 4 else 0) + (if evalTerm s r.t3 then 8 else 0) := by
  simp only [ruleIndex, Bool.toNat, Bool.cond_eq_ite, mul_ite, mul_one, mul_zero]

theorem ruleIndex_le (s : State) (r : Rule) : ruleIndex s r ≤ 15 := by
  have h0 := (evalTerm s r.t0).toNat_le
  have h1 := (evalTerm s r.t1).toNat_le
  have h2 := (evalTerm s r.t2).toNat_le
  have h3 := (evalTerm s r.t3).toNat_le
  unfold ruleIndex
  omega

/-! ## The chosen truth table (R49) -/

section
variable {s : State} {r : Rule} {n b : Nat}

theorem selectsT1_of_none (h : r.selector = none) : selectsT1 s r = true := by
  simp [selectsT1, h]

theorem selectsT1_of_read (h : r.selector = some (n, b))
    (hq : (getPoint s n).quality = .fresh ∨ (getPoint s n).quality = .forced) :
    selectsT1 s r = (getPoint s n).value.getLsbD b := by
  obtain hq | hq := hq <;> simp [selectsT1, h, hq]

theorem selectsT1_of_unread (h : r.selector = some (n, b))
    (hq : (getPoint s n).quality = .never ∨ (getPoint s n).quality = .stale) :
    selectsT1 s r = false := by
  obtain hq | hq := hq <;> simp [selectsT1, h, hq]

end

/-! ## The mark FORCED-INPUT (R50) -/

theorem termForced_iff (s : State) (t : Term) :
    termForced s t = true ↔ ∃ n ∈ t.point.toList, (getPoint s n).quality = .forced := by
  cases h : t.point <;> simp [termForced, h]

theorem selectorForced_iff (s : State) (r : Rule) :
    selectorForced s r = true ↔
      ∃ n ∈ (r.selector.map (·.1)).toList, (getPoint s n).quality = .forced := by
  cases h : r.selector <;> simp [selectorForced, h]

/-- The mark is set by exactly the points the rule reads. -/
theorem evalRule_forced_iff (s : State) (r : Rule) :
    (evalRule s r).1.forced = true ↔ ∃ n ∈ r.reads, (getPoint s n).quality = .forced := by
  simp only [evalRule, Rule.reads, Bool.or_eq_true, termForced_iff, selectorForced_iff,
    List.mem_append, or_and_right, exists_or]

/-! ## The rule found (R47) -/

theorem Rule.matches_iff (r : Rule) (o : Port) (f : Frame) :
    r.matches o f = true ↔
      (r.origin = none ∨ r.origin = some o) ∧ (r.dest = none ∨ r.dest = some f.dest.toNat) ∧
      (r.code = none ∨ r.code = some f.code) ∧ r.devLow ≤ f.device ∧ f.device ≤ r.devHigh := by
  simp only [Rule.matches, Bool.and_eq_true, Bool.or_eq_true, Option.isNone_iff_eq_none,
    decide_eq_true_eq, and_assoc]

theorem lookupRule_eq_some_iff (s : State) (o : Port) (f : Frame) (e : Nat × Rule) :
    lookupRule s o f = some e ↔ ∃ before after, s.rules = before ++ e :: after ∧
      e.2.matches o f = true ∧ ∀ x ∈ before, ¬x.2.matches o f = true := by
  rw [lookupRule, List.find?_eq_some_iff_append]
  constructor
  · rintro ⟨found, before, after, split, passed⟩
    exact ⟨before, after, split, found, fun x hx => by simpa using passed x hx⟩
  · rintro ⟨before, after, split, found, passed⟩
    exact ⟨found, before, after, split, fun x hx => by simpa using passed x hx⟩

theorem lookupRule_eq_none_iff (s : State) (o : Port) (f : Frame) :
    lookupRule s o f = none ↔ ∀ x ∈ s.rules, ¬x.2.matches o f = true :=
  List.find?_eq_none

/-- Settles O19: the evaluation field by field, and the lookup as the first entry that matches. -/
theorem ruleLookupAndSelectedBit : Obligations.RuleLookupAndSelectedBit := by
  unfold Obligations.RuleLookupAndSelectedBit
  refine ⟨fun s r => ⟨ruleIndex_eq s r, ruleIndex_le s r, fun _ => evalTerm_of_none s,
    selectsT1_of_none, fun _ _ => selectsT1_of_read, fun _ _ => selectsT1_of_unread, rfl,
    evalRule_forced_iff s r⟩, fun s o f => ?lookup⟩
  case lookup =>
    simp only [← Rule.matches_iff]
    exact ⟨fun n r => lookupRule_eq_some_iff s o f (n, r), lookupRule_eq_none_iff s o f⟩

end Sys2Proof.Machine

/-! # Proofs: the judgement of orders (R41 to R44, R52) -/

namespace Sys2Proof.Machine

open Sys2Proof

/-! ## The arrival of a judged order -/

/-- The rows whose frames are judged: the orders to the part, and those at the B-port to a station. -/
def FrameRow.isJudged : FrameRow → Bool
  | .sample => false
  | .voice => false
  | .report => false
  | .orderToBridge => false
  | .manage => false
  | _ => true

theorem isJudged_partRow (code : Nat) : (partRow code).isJudged = true := by
  unfold partRow
  split_ifs <;> rfl

theorem isJudged_stationRow (code : Nat) : (stationRow code).isJudged = true := by
  unfold stationRow
  split_ifs <;> rfl

theorem rowOf_toPart {f : Frame} (p : Port) (hk : f.kind = .order) (hd : f.dest = 0) :
    rowOf p f = partRow f.code := by
  simp [rowOf, hk, hd]

theorem rowOf_toStation {f : Frame} (hk : f.kind = .order) (hd : f.dest ≠ 0) :
    rowOf .b f = stationRow f.code := by
  rw [rowOf, hk]
  exact if_neg hd

/-- Only the orders at the D-port toward the bridge go by unjudged (R7). -/
theorem isJudged_rowOf {p : Port} {f : Frame} (hk : f.kind = .order) (hp : p = .b ∨ f.dest = 0) :
    (rowOf p f).isJudged = true := by
  by_cases hd : f.dest = 0
  · rw [rowOf_toPart p hk hd]
    exact isJudged_partRow f.code
  · obtain rfl := hp.resolve_right hd
    rw [rowOf_toStation hk hd]
    exact isJudged_stationRow f.code

/-- The commands of the judged rows differ in their row alone. -/
theorem exec_frameCommand_of_isJudged {row : FrameRow} (h : row.isJudged = true) (p : Port)
    (bytes : List Byte) (s : State) :
    exec (frameCommand row p bytes) s = .next (receive p bytes row onOrder s) := by
  cases row with
  | sample | voice | report | orderToBridge | manage => cases h
  | _ => rfl

theorem receive_of_arrives {p : Port} {bytes : List Byte} {f : Frame} {s t : State}
    (h : Arrives p bytes f s t) (own : Port → Frame → State → State) :
    receive p bytes (rowOf p f) own s = settle (own p f t) := by
  obtain ⟨spells, side, rfl⟩ := h
  simp [receive, spells, side]

theorem onOrder_of_not_near {p : Port} {f : Frame} {t : State} (h : destination t p f ≠ .near) :
    onOrder p f t = judge f p t := by
  unfold onOrder
  cases hd : destination t p f with
  | part => rfl
  | across => rfl
  | near => exact absurd hd h

/-- The command of a judged order judges it, and its change events are taken. -/
theorem exec_judged_order {p : Port} {bytes : List Byte} {f : Frame} {s t : State}
    (h : Arrives p bytes f s t) (hk : f.kind = .order) (hn : destination t p f ≠ .near)
    (hp : p = .b ∨ f.dest = 0) :
    exec (frameCommand (rowOf p f) p bytes) s = .next (settle (judge f p t)) := by
  rw [exec_frameCommand_of_isJudged (isJudged_rowOf hk hp), receive_of_arrives h,
    onOrder_of_not_near hn]

/-! ## The checks in their sequence (R41 to R44, R47) -/

section
variable {f : Frame} {o : Port} {s : State}

theorem judge_of_mode (hm : modeAllows s.mode f = false) :
    judge f o s = refuse .mode f o none none s :=
  if_pos hm

theorem judge_of_undecoded (hm : modeAllows s.mode f = true) (hd : f.dest = 0)
    (hc : decodes f = false) : judge f o s = refuse (.target .noSuch) f o none none s := by
  simp [judge, hm, hd, hc]

theorem not_undecoded (hc : f.dest = 0 → decodes f = true) : ¬(f.dest = 0 ∧ decodes f = false) :=
  fun ⟨hd, undecoded⟩ => by simp [hc hd] at undecoded

theorem judge_of_gated (hm : modeAllows s.mode f = true) (hc : f.dest = 0 → decodes f = true)
    (hg : gateBars s f = true) : judge f o s = refuse .gated f o none none s := by
  simp only [judge, hm, not_undecoded hc, hg, reduceCtorEq, ↓reduceIte]

theorem judge_of_default (hm : modeAllows s.mode f = true) (hc : f.dest = 0 → decodes f = true)
    (hg : gateBars s f = false) (hr : lookupRule s o f = none)
    (hv : s.settings.verdict = .refuse) : judge f o s = refuse .default f o none none s := by
  simp only [judge, hm, not_undecoded hc, hg, hr, hv, reduceCtorEq, ↓reduceIte]

theorem judge_of_notPassed {n : Nat} {r : Rule} (hm : modeAllows s.mode f = true)
    (hc : f.dest = 0 → decodes f = true) (hg : gateBars s f = false)
    (hr : lookupRule s o f = some (n, r)) (he : (evalRule s r).2 = false) :
    judge f o s = notPassed f o n r (evalRule s r).1 s := by
  simp only [judge, hm, not_undecoded hc, hg, hr, he, reduceCtorEq, ↓reduceIte]

end

/-! ## Unknown orders (R43) -/

theorem decodes_of_unknown {f : Frame} (h : partRow f.code = .unknownOrder) : decodes f = false := by
  simp [decodes, h]

/-- An order is of the unknown row by its code, and only where it is addressed to the part. -/
theorem unknown_of_rowOf {p : Port} {f : Frame} (hk : f.kind = .order) (hp : p = .b ∨ f.dest = 0)
    (hr : rowOf p f = .unknownOrder) : f.dest = 0 ∧ partRow f.code = .unknownOrder := by
  by_cases hd : f.dest = 0
  · exact ⟨hd, rowOf_toPart p hk hd ▸ hr⟩
  · obtain rfl := hp.resolve_right hd
    rw [rowOf_toStation hk hd, stationRow] at hr
    split_ifs at hr

/-! ## The false verdict of a rule (R52) -/

section
variable {s : State} {r : Rule} (f : Frame) (o : Port) (n : Nat) (e : Evaluation)

theorem notPassed_of_refuse (hv : r.verdict = .refuse) :
    notPassed f o n r e s = refuse .rule f o (some n) (some e) s := by
  rw [notPassed, hv]

theorem notPassed_of_full (hv : r.verdict = .hold) (full : Config.holdCap ≤ s.hold.length) :
    notPassed f o n r e s = refuse .holdFull f o (some n) (some e) s := by
  rw [notPassed, hv]
  exact if_neg full.not_gt

theorem notPassed_of_room (hv : r.verdict = .hold) (room : s.hold.length < Config.holdCap) :
    notPassed f o n r e s = reportVerdict .held f o (some n) (some e) { s with
      hold := s.hold ++ [{ frame := f, origin := o, rule := n, remaining := r.holdLimit
                           eval := e }] } := by
  rw [notPassed, hv]
  exact if_pos room

end

/-- Settles O21: the arrival leaves the judgement, and each check of the judgement has its lemma. -/
theorem judgedOrderIsRefusedInSequence : Obligations.JudgedOrderIsRefusedInSequence := by
  unfold Obligations.JudgedOrderIsRefusedInSequence
  intro p bytes f s t arrives hk hn hp
  have judged := exec_judged_order arrives hk hn hp
  refine ⟨fun hm => ?mode, fun hm hd hc => ?undecoded, fun run hr => ?unknown,
    fun hm hc hg => ?gated, fun hm hc hg hr hv => ?default, fun n r hm hc hg hr he => ?rule⟩
  case mode => rw [judged, judge_of_mode hm]
  case undecoded => rw [judged, judge_of_undecoded hm hd hc]
  case unknown =>
    obtain ⟨hd, code⟩ := unknown_of_rowOf hk hp hr
    have hm : modeAllows t.mode f = true := by rw [run]; rfl
    rw [hr, judge_of_undecoded hm hd (decodes_of_unknown code)] at judged
    exact judged
  case gated => rw [judged, judge_of_gated hm hc hg]
  case default => rw [judged, judge_of_default hm hc hg hr hv]
  case rule =>
    rw [judged, judge_of_notPassed hm hc hg hr he]
    refine ⟨fun hv => ?refuse, fun hv full => ?full, fun hv room => ?room⟩
    case refuse => rw [notPassed_of_refuse f p n _ hv]
    case full => rw [notPassed_of_full f p n _ hv full]
    case room => rw [notPassed_of_room f p n _ hv room]

end Sys2Proof.Machine

/-! # Proofs: the expiry of held orders (R57) -/

namespace Sys2Proof.Machine

open Sys2Proof

theorem exec_holdExpired (s : State) : exec .holdExpired s = .next (settle (expireHeld s)) := rfl

/-- R57, R61: the refusal of a held order names the rule and the evaluation its entry holds. -/
theorem refuse_holdEntry (why : RefuseReason) (h : HoldEntry) (t : State) :
    refuse why h.frame h.origin (some h.rule) (some h.eval) t =
      offerReport ⟨refusalAlarm t why (some h.rule),
        .verdict .refused (some why) h.frame h.origin (some h.rule) (some h.eval)⟩ t := rfl

/-- Settles O24: the queue keeps the other entries, and each expired one is refused in its turn. -/
theorem expiredHeldOrdersAreRefused : Obligations.ExpiredHeldOrdersAreRefused := by
  unfold Obligations.ExpiredHeldOrdersAreRefused
  intro s
  simp only [exec_holdExpired, expireHeld, refuse_holdEntry]

end Sys2Proof.Machine

/-! # Proofs: the derived door state (R109, R110) -/

namespace Sys2Proof.Machine

open Sys2Proof

/-! ## The readings of the proofs (R109) -/

/-- A proof point is usable exactly where its quality is FRESH or FORCED. -/
theorem proof_eq_ite (s : State) (n : Nat) :
    proof s n = if (getPoint s n).quality = .fresh ∨ (getPoint s n).quality = .forced
      then some ((getPoint s n).value.getLsbD 0) else none := by
  cases h : (getPoint s n).quality <;> simp [proof, h]

theorem closedByProof_iff (s : State) (c : DoorCfg) :
    closedByProof s c = true ↔
      proof s c.closedPoint = some true ∧ proof s c.openPoint = some false := by
  simp [closedByProof]

theorem openByProof_iff (s : State) (c : DoorCfg) :
    openByProof s c = true ↔
      proof s c.closedPoint = some false ∧ proof s c.openPoint = some true := by
  simp [openByProof, and_comm]

theorem bothProofs_iff (s : State) (c : DoorCfg) :
    bothProofs s c = true ↔
      proof s c.closedPoint = some true ∧ proof s c.openPoint = some true := by
  simp [bothProofs]

/-! ## The lines of Table 6-3 -/

theorem doorStateOf_jammed {closed opened : Option Bool} (i : InFlight)
    (h : ¬(closed = some true ∧ opened = some false)) :
    doorStateOf closed opened i true = .jammed :=
  if_pos ⟨rfl, h⟩

/-- A jam mark does not hide a door that is closed by proof. -/
theorem doorStateOf_closed (i : InFlight) (jam : Bool) :
    doorStateOf (some true) (some false) i jam = .closed := by
  simp [doorStateOf]

theorem doorStateOf_unusable {closed opened : Option Bool} (i : InFlight)
    (h : closed = none ∨ opened = none) : doorStateOf closed opened i false = .unknown := by
  obtain rfl | rfl := h
  · rfl
  · cases closed <;> rfl

/-! ## What a derivation settles (R110) -/

section
variable {s : State} {x : Door}

theorem deriveDoor_state (s : State) (x : Door) :
    (deriveDoor s x).state = doorStateOf (proof s x.cfg.closedPoint) (proof s x.cfg.openPoint)
      (deriveDoor s x).inFlight (deriveDoor s x).jam := rfl

theorem deriveDoor_jam (s : State) (x : Door) :
    (deriveDoor s x).jam = (x.jam && !closedByProof s x.cfg) := rfl

theorem deriveDoor_jam_of_closed (h : closedByProof s x.cfg = true) :
    (deriveDoor s x).jam = false := by
  simp [deriveDoor_jam, h]

theorem deriveDoor_jam_of_not_closed (h : ¬closedByProof s x.cfg = true) :
    (deriveDoor s x).jam = x.jam := by
  simp [deriveDoor_jam, h]

theorem deriveDoor_state_of_unmarked (h : x.jam = false) :
    (deriveDoor s x).state = doorStateOf (proof s x.cfg.closedPoint) (proof s x.cfg.openPoint)
      (deriveDoor s x).inFlight false := by
  simp [deriveDoor_state, deriveDoor_jam, h]

theorem deriveDoor_inFlight (s : State) (x : Door) :
    (deriveDoor s x).inFlight =
      if (closedByProof s x.cfg = true ∧ x.inFlight = .close) ∨
          (openByProof s x.cfg = true ∧ x.inFlight = .opening)
        then .none else x.inFlight := rfl

theorem not_openByProof_of_closedByProof (h : closedByProof s x.cfg = true) :
    ¬openByProof s x.cfg = true := by
  obtain ⟨hc, _⟩ := (closedByProof_iff s x.cfg).mp h
  simp [openByProof_iff, hc]

theorem deriveDoor_inFlight_of_closed (h : closedByProof s x.cfg = true) :
    (deriveDoor s x).inFlight = if x.inFlight = .close then .none else x.inFlight := by
  simp [deriveDoor_inFlight, h, not_openByProof_of_closedByProof h]

theorem deriveDoor_inFlight_of_open (h : openByProof s x.cfg = true) :
    (deriveDoor s x).inFlight = if x.inFlight = .opening then .none else x.inFlight := by
  have notClosed : ¬closedByProof s x.cfg = true :=
    fun closed => not_openByProof_of_closedByProof closed h
  simp [deriveDoor_inFlight, h, notClosed]

/-- Only a door that stands somewhere by proof has its order ended. -/
theorem deriveDoor_inFlight_of_neither (hc : ¬closedByProof s x.cfg = true)
    (ho : ¬openByProof s x.cfg = true) : (deriveDoor s x).inFlight = x.inFlight := by
  simp [deriveDoor_inFlight, hc, ho]

/-- An unusable proof, like equal readings, leaves a door closed and open by neither. -/
theorem deriveDoor_inFlight_of_unusable
    (h : proof s x.cfg.closedPoint = none ∨ proof s x.cfg.openPoint = none) :
    (deriveDoor s x).inFlight = x.inFlight := by
  apply deriveDoor_inFlight_of_neither <;> obtain h | h := h <;>
    simp [closedByProof_iff, openByProof_iff, h]

theorem deriveDoor_inFlight_of_equal {b : Bool} (hc : proof s x.cfg.closedPoint = some b)
    (ho : proof s x.cfg.openPoint = some b) : (deriveDoor s x).inFlight = x.inFlight := by
  apply deriveDoor_inFlight_of_neither <;> cases b <;>
    simp [closedByProof_iff, openByProof_iff, hc, ho]

end

/-- Settles O37: the readings by their lemmas, then one line of Table 6-3 after the other, each with
what the derivation settles there. -/
theorem doorStateFollowsItsProofs : Obligations.DoorStateFollowsItsProofs := by
  unfold Obligations.DoorStateFollowsItsProofs
  intro s x y closed opened hc ho hy
  rw [← proof_eq_ite] at hc ho
  subst hc ho hy
  refine ⟨⟨rfl, rfl⟩, closedByProof_iff s x.cfg, openByProof_iff s x.cfg, rfl,
    fun hc ho => ?closed, fun notClosed => ?notClosed, fun unmarked unusable => ?unusable,
    fun unmarked hc ho => ?both, fun unmarked hc ho => ?opened, fun unmarked hc ho => ?between,
    bothProofs_iff s x.cfg, deriveDoor_cfg s x⟩
  case closed =>
    have byProof := (closedByProof_iff s x.cfg).mpr ⟨hc, ho⟩
    have flight := deriveDoor_inFlight_of_closed byProof
    refine ⟨?state, deriveDoor_jam_of_closed byProof, ?noClose,
      fun notClose => flight.trans (if_neg notClose)⟩
    case state => rw [deriveDoor_state, hc, ho, doorStateOf_closed]
    case noClose =>
      rw [flight]
      split_ifs with isClose
      · decide
      · exact isClose
  case notClosed =>
    have jam := deriveDoor_jam_of_not_closed (mt (closedByProof_iff s x.cfg).mp notClosed)
    refine ⟨jam, fun marked => ?_⟩
    rw [deriveDoor_state, jam, marked, doorStateOf_jammed _ notClosed]
  case unusable =>
    refine ⟨?_, deriveDoor_inFlight_of_unusable unusable⟩
    rw [deriveDoor_state_of_unmarked unmarked, doorStateOf_unusable _ unusable]
  case both =>
    refine ⟨?_, deriveDoor_inFlight_of_equal hc ho⟩
    rw [deriveDoor_state_of_unmarked unmarked, hc, ho]
    rfl
  case opened =>
    refine ⟨?_, deriveDoor_inFlight_of_open ((openByProof_iff s x.cfg).mpr ⟨hc, ho⟩)⟩
    rw [deriveDoor_state_of_unmarked unmarked, hc, ho]
    rfl
  case between =>
    have flight := deriveDoor_inFlight_of_equal hc ho
    refine ⟨flight, ?_⟩
    rw [deriveDoor_state_of_unmarked unmarked, flight, hc, ho]
    rfl

end Sys2Proof.Machine

/-! # Proofs: what every command keeps -/

namespace Sys2Proof.Machine

open Sys2Proof

/-! ## The frame of a command -/

/-- What a command of a kind leaves as it is, beside what every command keeps. -/
structure Scope where
  tables : Bool
  points : Bool
  forced : Bool
  feedback : AxisId → Bool
  travel : AxisId → Bool

/-- The feedback position, the encoder levels and the inputs of an axis (R65). -/
def Axis.feedback (x : Axis) : Int × Bool × Bool × LocalInputs := (x.fp, x.encA, x.encB, x.inputs)

/-- The FORCED field points of `s` are FORCED with the same value in `t`. -/
def ForcedStand (s t : State) : Prop :=
  ∀ n, n ≤ 511 → (getPoint s n).quality = .forced →
    (getPoint t n).quality = .forced ∧ (getPoint t n).value = (getPoint s n).value

/-- Every command keeps the waiting commands, the capacities and the canonical form; the tables, the
field points, the FORCED ones, the feedback and the travel counters where the scope says so. -/
structure Preserves (k : Scope) (s t : State) : Prop where
  pending : t.pending = s.pending
  bounded : Bounded s → Bounded t
  canonical : Canonical s → Canonical t
  tables : k.tables = true → Canonical s → SameTables s t
  points : k.points = true → ∀ n, n ≤ 511 → getPoint t n = getPoint s n
  forced : k.forced = true → ForcedStand s t
  feedback : ∀ a, k.feedback a = true → (getAxis t a).feedback = (getAxis s a).feedback
  travel : ∀ a, k.travel a = true → (getAxis t a).travel = (getAxis s a).travel

/-- As `Preserves`, with the ownership of the audio zones kept. -/
structure PreservesAll (k : Scope) (s t : State) : Prop extends Preserves k s t where
  owned : Owned s → Owned t

theorem SameTables.refl (s : State) : SameTables s s :=
  ⟨fun _ => rfl, rfl, rfl, fun _ => rfl, fun _ => rfl, fun _ => rfl, rfl, rfl, rfl, rfl, rfl⟩

theorem SameTables.trans {s t u : State} (h : SameTables s t) (g : SameTables t u) :
    SameTables s u :=
  ⟨fun n => (g.stations n).trans (h.stations n), g.pointMap.trans h.pointMap, g.rules.trans h.rules,
   fun a => (g.axes a).trans (h.axes a), fun d => (g.doors d).trans (h.doors d),
   fun z => (g.zones z).trans (h.zones z), g.programs.trans h.programs,
   g.templates.trans h.templates, g.audioZones.trans h.audioZones, g.responses.trans h.responses,
   g.settings.trans h.settings⟩

theorem ForcedStand.refl (s : State) : ForcedStand s s := fun _ _ h => ⟨h, rfl⟩

theorem ForcedStand.trans {s t u : State} (h : ForcedStand s t) (g : ForcedStand t u) :
    ForcedStand s u := fun n hn hf =>
  have ⟨forced, value⟩ := h n hn hf
  have ⟨forced', value'⟩ := g n hn forced
  ⟨forced', value'.trans value⟩

theorem ForcedStand.of_points {s t : State} (h : ∀ n, n ≤ 511 → getPoint t n = getPoint s n) :
    ForcedStand s t := fun n hn hf => by rw [h n hn]; exact ⟨hf, rfl⟩

section
variable {k : Scope} {s t u : State}

theorem Preserves.trans (h : Preserves k s t) (g : Preserves k t u) : Preserves k s u :=
  ⟨g.pending.trans h.pending, fun b => g.bounded (h.bounded b), fun c => g.canonical (h.canonical c),
   fun w c => (h.tables w c).trans (g.tables w (h.canonical c)),
   fun w n hn => (g.points w n hn).trans (h.points w n hn),
   fun w => (h.forced w).trans (g.forced w), fun a w => (g.feedback a w).trans (h.feedback a w),
   fun a w => (g.travel a w).trans (h.travel a w)⟩

theorem PreservesAll.refl (k : Scope) (s : State) : PreservesAll k s s :=
  ⟨⟨rfl, id, id, fun _ _ => .refl s, fun _ _ _ => rfl, fun _ => .refl s, fun _ _ => rfl,
    fun _ _ => rfl⟩, id⟩

theorem PreservesAll.trans (h : PreservesAll k s t) (g : PreservesAll k t u) : PreservesAll k s u :=
  ⟨h.toPreserves.trans g.toPreserves, fun o => g.owned (h.owned o)⟩

/-- What no operation inside a block changes leaves the tables as they read. -/
theorem Keeps.sameTables (h : Keeps s t) : SameTables s t := by
  have hf := h.frozen
  simp only [frozenOf, Frozen.mk.injEq] at hf
  obtain ⟨stations, pointMap, rules, programs, templates, audioZones, -, -, responses, settings, -⟩ :=
    hf
  exact ⟨fun n => by rw [getStation, getStation, stations], pointMap, rules,
    fun a => congrArg AxisCounters.cfg (h.counters a), h.doors, h.zones, programs, templates,
    audioZones, responses, settings⟩

theorem Keeps.preserves (h : Keeps s t) (k : Scope) : Preserves k s t where
  pending := congrArg Frozen.pending h.frozen
  bounded := h.bounded
  canonical := h.canonical
  tables := fun _ _ => h.sameTables
  points := fun _ => h.points
  forced := fun _ => .of_points h.points
  feedback := fun a _ => by
    have hc := h.counters a
    simp only [countersOf, AxisCounters.mk.injEq] at hc
    simp [Axis.feedback, hc]
  travel := fun a _ => congrArg AxisCounters.travel (h.counters a)

/-- The operations inside the blocks preserve everything, whatever the scope. -/
theorem KeepsAll.preservesAll (h : KeepsAll s t) (k : Scope) : PreservesAll k s t :=
  ⟨h.toKeeps.preserves k, h.owned⟩

theorem preservesAll_settle (k : Scope) (s : State) : PreservesAll k s (settle s) :=
  (keepsAll_settle s).preservesAll k

theorem PreservesAll.settle (h : PreservesAll k s t) : PreservesAll k s (settle t) :=
  h.trans (preservesAll_settle k t)

theorem PreservesAll.then (h : PreservesAll k s t) (g : KeepsAll t u) : PreservesAll k s u :=
  h.trans (g.preservesAll k)

/-- Either branch of a choice preserves. -/
theorem PreservesAll.ite {p : Prop} [Decidable p] (h : PreservesAll k s t) (g : PreservesAll k s u) :
    PreservesAll k s (if p then t else u) := by
  split
  · exact h
  · exact g

/-- A fold of operations that each preserve. -/
theorem PreservesAll.foldl {α : Type} {f : State → α → State} (h : ∀ t x, PreservesAll k t (f t x))
    (l : List α) (s : State) : PreservesAll k s (l.foldl f s) := by
  induction l generalizing s with
  | nil => exact .refl k s
  | cons x l ih => exact (h s x).trans (ih (f s x))

end

/-! ## Primitive updates -/

section
variable (k : Scope) (s : State)

/-- An update of the ports: counts, marks, presence and queues within their room. -/
theorem preservesAll_link (l : Link) (hb : Bounded s → l.safety.length ≤ 8 ∧ l.voice.length ≤ 4 ∧
      l.forward.length ≤ 16 ∧ l.dToB.length ≤ 16) : PreservesAll k s { s with link := l } where
  pending := rfl
  bounded := fun b =>
    have ⟨safety, voice, forward, dToB⟩ := hb b
    { b with safety, voice, forward, dToB }
  canonical := fun c => { c with }
  tables := fun _ _ => { SameTables.refl s with }
  points := fun _ _ _ => rfl
  forced := fun _ => .of_points fun _ _ => rfl
  feedback := fun _ _ => rfl
  travel := fun _ _ => rfl
  owned := id

/-- An update of the management unit: requests within their room, and the staging record. -/
theorem preservesAll_manage (rs : List Request) (g : Option Staging)
    (hb : Bounded s → rs.length ≤ 16) :
    PreservesAll k s { s with manage := rs, staging := g } where
  pending := rfl
  bounded := fun b => { b with manage := hb b }
  canonical := fun c => { c with }
  tables := fun _ _ => { SameTables.refl s with }
  points := fun _ _ _ => rfl
  forced := fun _ => .of_points fun _ _ => rfl
  feedback := fun _ _ => rfl
  travel := fun _ _ => rfl
  owned := id

/-- An update of the hold queue and of the report queue within their room, of the reports held while
the blocks rebuild, and of mode control's classes. -/
theorem preservesAll_queues (hs : List HoldEntry) (rs : List Report) (o : Bool)
    (held : Option (List Report)) (cs : Vector ClassState 8)
    (hb : Bounded s → hs.length ≤ 8 ∧ rs.length ≤ 32) :
    PreservesAll k s { s with
      hold := hs, reports := rs, overflow := o, rebuilding := held, classes := cs } where
  pending := rfl
  bounded := fun b => { b with hold := (hb b).1, reports := (hb b).2 }
  canonical := fun c => { c with }
  tables := fun _ _ => { SameTables.refl s with }
  points := fun _ _ _ => rfl
  forced := fun _ => .of_points fun _ _ => rfl
  feedback := fun _ _ => rfl
  travel := fun _ _ => rfl
  owned := id

/-- An update of the station slots that keeps the entries. -/
theorem preservesAll_stations (st : Tab Station)
    (he : Canonical s → ∀ n, ((Tab.get? st n).getD {}).entry = (getStation s n).entry)
    (hs : Canonical s → Tab.Sorted st = true ∧ ∀ e ∈ st, e.2 ≠ {}) :
    PreservesAll k s { s with stations := st } where
  pending := rfl
  bounded := fun b => { b with }
  canonical := fun c => { c with stations := (hs c).1, stationsListed := (hs c).2 }
  tables := fun _ c => { SameTables.refl s with stations := he c }
  points := fun _ _ _ => rfl
  forced := fun _ => .of_points fun _ _ => rfl
  feedback := fun _ _ => rfl
  travel := fun _ _ => rfl
  owned := id

/-- An update of the image, in a scope that leaves the field points open. -/
theorem preservesAll_points (t : Tab Point) (es : List (List Nat)) (hk : k.points = false)
    (hf : k.forced = true → ForcedStand s { s with points := t })
    (hs : Canonical s → Tab.Sorted t = true ∧ ∀ e ∈ t, e.2 ≠ {}) :
    PreservesAll k s { s with points := t, events := es } where
  pending := rfl
  bounded := fun b => { b with }
  canonical := fun c => { c with points := (hs c).1, pointsListed := (hs c).2 }
  tables := fun _ _ => { SameTables.refl s with }
  points := fun w => by simp [hk] at w
  forced := hf
  feedback := fun _ _ => rfl
  travel := fun _ _ => rfl
  owned := id

/-- An update of one axis that does not lengthen its move list; the scope says what else it keeps. -/
theorem preservesAll_setAxis (a : AxisId) (x : Axis)
    (hc : k.tables = true → x.cfg = (getAxis s a).cfg)
    (hp : x.pending.length ≤ (getAxis s a).pending.length)
    (hf : k.feedback a = true → x.feedback = (getAxis s a).feedback)
    (ht : k.travel a = true → x.travel = (getAxis s a).travel) :
    PreservesAll k s (setAxis a x s) where
  pending := rfl
  bounded := fun b =>
    { b with
      moves := by
        intro c
        rw [getAxis_setAxis]
        split
        · exact hp.trans (b.moves a)
        · exact b.moves c }
  canonical := fun c => { c with }
  tables := fun w _ =>
    { SameTables.refl s with
      axes := by
        intro b
        rw [getAxis_setAxis]
        split
        next h => subst h; exact hc w
        next => rfl }
  points := fun _ _ _ => rfl
  forced := fun _ => .of_points fun _ _ => rfl
  feedback := fun b w => by
    rw [getAxis_setAxis]
    split
    next h => subst h; exact hf w
    next => rfl
  travel := fun b w => by
    rw [getAxis_setAxis]
    split
    next h => subst h; exact ht w
    next => rfl
  owned := id

/-- An update of every axis that keeps its record and does not lengthen its move list. -/
theorem preservesAll_mapAxes (f : Axis → Axis) (ps : List PartnerMsg) (hc : ∀ x, (f x).cfg = x.cfg)
    (hp : ∀ x, (f x).pending.length ≤ x.pending.length) (hf : ∀ x, (f x).feedback = x.feedback)
    (ht : ∀ x, (f x).travel = x.travel) :
    PreservesAll k s { s with axes := s.axes.map f, partner := ps } := by
  have read : ∀ a, getAxis { s with axes := s.axes.map f, partner := ps } a = f (getAxis s a) :=
    fun a => by simp [getAxis]
  exact {
    pending := rfl
    bounded := fun b => { b with moves := fun a => by rw [read]; exact (hp _).trans (b.moves a) }
    canonical := fun c => { c with }
    tables := fun _ _ => { SameTables.refl s with axes := fun a => by rw [read]; exact hc _ }
    points := fun _ _ _ => rfl
    forced := fun _ => .of_points fun _ _ => rfl
    feedback := fun a _ => by rw [read]; exact hf _
    travel := fun a _ => by rw [read]; exact ht _
    owned := id }

/-- An update of every door that keeps the records. -/
theorem preservesAll_mapDoors (g : Door → Door) (hc : ∀ x, (g x).cfg = x.cfg) :
    PreservesAll k s { s with doors := s.doors.map (fun e => (e.1, g e.2)) } where
  pending := rfl
  bounded := fun b => { b with }
  canonical := fun c => { c with doors := Tab.sorted_map _ (fun e => g e.2) c.doors }
  tables := fun _ _ =>
    { SameTables.refl s with
      doors := by
        intro d
        rw [Tab.get?_map s.doors (fun _ => g) d]
        cases Tab.get? s.doors d <;> simp [hc] }
  points := fun _ _ _ => rfl
  forced := fun _ => .of_points fun _ _ => rfl
  feedback := fun _ _ => rfl
  travel := fun _ _ => rfl
  owned := id

/-- An update of the call list that keeps to its room; ownership is another matter. -/
theorem preserves_calls (cs : List Call) (n : Nat) (hb : Bounded s → cs.length ≤ 16) :
    Preserves k s { s with calls := cs, lastNumber := n } :=
  (keeps_calls s cs n hb).preserves k

/-- An update of the tables, in a scope that leaves them open. -/
theorem preservesAll_tables (pm : Tab MapEntry) (rs : Tab Rule) (ds : Tab Door) (zs : Tab Zone)
    (ps : Tab (List ProgStep)) (ts : Tab Template) (az : Tab AudioZone) (rp : Vector Response 8)
    (st : Settings) (hk : k.tables = false)
    (hs : Canonical s → Tab.Sorted pm = true ∧ Tab.Sorted rs = true ∧ Tab.Sorted ds = true ∧
      Tab.Sorted zs = true ∧ Tab.Sorted ps = true ∧ Tab.Sorted ts = true ∧ Tab.Sorted az = true) :
    PreservesAll k s { s with
      pointMap := pm, rules := rs, doors := ds, zones := zs, programs := ps, templates := ts
      audioZones := az, responses := rp, settings := st } where
  pending := rfl
  bounded := fun b => { b with }
  canonical := fun c =>
    have ⟨pointMap, rules, doors, zones, programs, templates, audioZones⟩ := hs c
    { c with pointMap, rules, doors, zones, programs, templates, audioZones }
  tables := fun w => by simp [hk] at w
  points := fun _ _ _ => rfl
  forced := fun _ => .of_points fun _ _ => rfl
  feedback := fun _ _ => rfl
  travel := fun _ _ => rfl
  owned := id

end

end Sys2Proof.Machine

/-! # Proofs: what the arrival of a frame keeps -/

namespace Sys2Proof.Machine

open Sys2Proof

section
variable (k : Scope)

/-! ## Stations -/

theorem canonical_putStation (n : Nat) (x : Station) {s : State} (c : Canonical s) :
    Tab.Sorted (putStation n x s).stations = true ∧
      ∀ e ∈ (putStation n x s).stations, e.2 ≠ {} := by
  unfold putStation
  dsimp only
  split
  next => exact ⟨Tab.sorted_erase _ n c.stations,
    fun e he => c.stationsListed e (List.mem_of_mem_filter he)⟩
  next hx =>
    refine ⟨Tab.sorted_set _ n x c.stations, fun e he => ?_⟩
    obtain rfl | he := Tab.mem_set he
    · exact hx
    · exact c.stationsListed e he

/-- What is kept for a station changes, its entry does not (R19). -/
theorem preservesAll_putStation (n : Nat) (x : Station) (s : State)
    (h : x.entry = (getStation s n).entry) : PreservesAll k s (putStation n x s) := by
  refine preservesAll_stations k s _ (fun _ m => ?_) (canonical_putStation n x)
  change (getStation (putStation n x s) m).entry = _
  rw [getStation_putStation]
  split
  next hm => subst hm; exact h
  next => rfl

/-! ## The link (R3, R4, R17, R20) -/

theorem preservesAll_setErrors (p : Port) (n : Nat) (made : Bool) (s : State) :
    PreservesAll k s (setErrors p n made s) := by
  cases p <;> exact preservesAll_link k s _ fun b => ⟨b.safety, b.voice, b.forward, b.dToB⟩

theorem preservesAll_malformed (p : Port) (s : State) : PreservesAll k s (malformed p s) := by
  unfold malformed
  exact .ite (((preservesAll_setErrors k p _ true s).then (keepsAll_occurrence _ _ _)).then
    (keepsAll_routine _ _)) (preservesAll_setErrors k p _ _ s)

theorem preservesAll_stationHeard (n : Nat) (s : State) :
    PreservesAll k s (stationHeard n s) := by
  unfold stationHeard
  dsimp only
  split
  next => exact .refl k s
  next e he =>
    have heard := fun flag => preservesAll_putStation k n
      { getStation s n with state := .online, count := 0, silenceFlag := flag } s rfl
    split
    next => exact heard _
    next =>
      split
      · exact (heard _).then (keepsAll_routine _ _)
      · exact heard _
    next => exact ((heard _).then (keepsAll_routine _ _)).then (keepsAll_tell _ _ _)

theorem keepsAll_writeBridge (v : Nat) (s : State) :
    KeepsAll s (writePoints [(Config.bridgePoint, v)] s) :=
  keepsAll_writePoints _ s (by simp [Config.bridgePoint])

/-- R17, R18: the bridge state and its silence count change. -/
theorem preservesAll_bridge (b : BridgeState) (n : Nat) (due : Bool) (s : State) :
    PreservesAll k s
      { s with link := { s.link with silence := n, silenceDue := due, bridge := b } } :=
  preservesAll_link k s _ fun b => ⟨b.safety, b.voice, b.forward, b.dToB⟩

theorem preservesAll_managerHeard (s : State) : PreservesAll k s (managerHeard s) := by
  unfold managerHeard
  dsimp only
  have heard := preservesAll_bridge k .heard 0 false s
  split
  · exact heard
  · exact (heard.then (keepsAll_writeBridge 1 _)).then (keepsAll_routine _ _)
  · exact ((heard.then (keepsAll_writeBridge 1 _)).then (keepsAll_routine _ _)).then
      (keepsAll_tell _ _ _)

theorem preservesAll_heard (p : Port) (f : Frame) (s : State) :
    PreservesAll k s (heard p f s) := by
  unfold heard
  exact .ite ((preservesAll_stationHeard k _ s).trans (preservesAll_managerHeard k _))
    (preservesAll_stationHeard k _ s)

theorem preservesAll_declareSilence (s : State) : PreservesAll k s (declareSilence s) :=
  ((((preservesAll_bridge k .silent s.link.silence false s).then (keepsAll_writeBridge 0 _)).then
    (keepsAll_tell _ _ _)).then (keepsAll_announceAll _ _)).then (keepsAll_refuseHeld _ _)

/-! ## The field points (R27 to R31) -/

/-- Points of a list are set, none of them FORCED where the scope keeps those. -/
theorem preservesAll_setImage_foldl {α : Type} (key : α → Nat) (val : α → Point) (l : List α)
    (touched : List Nat) (s : State) (hk : k.points = false)
    (hf : k.forced = true → ∀ x ∈ l, (getPoint s (key x)).quality ≠ .forced) :
    PreservesAll k s
      (setImage (l.foldl (fun t x => putPoint t (key x) (val x)) s.points) touched s) := by
  obtain ⟨es, he⟩ := setImage_cases (l.foldl (fun t x => putPoint t (key x) (val x)) s.points) touched s
  rw [he]
  refine preservesAll_points k s _ es hk (fun w n _ hn => ?_) fun c =>
    ⟨sorted_foldl_putPoint key val l _ c.points, listed_foldl_putPoint key val l _ c.pointsListed⟩
  have same : getPoint { s with points := l.foldl (fun t x => putPoint t (key x) (val x)) s.points } n
      = getPoint s n :=
    getD_foldl_putPoint key val l s.points n fun x hx e => hf w x hx (e ▸ hn)
  rw [same]
  exact ⟨hn, rfl⟩

/-- One point is set. -/
theorem preservesAll_setImage_one (n : Nat) (p : Point) (s : State) (hk : k.points = false)
    (hf : k.forced = true → (getPoint s n).quality ≠ .forced) :
    PreservesAll k s (setImage (putPoint s.points n p) [n] s) :=
  preservesAll_setImage_foldl k (fun _ : Unit => n) (fun _ => p) [()] [n] s hk fun w _ _ => hf w

theorem slotPoint_not_forced {s : State} {station slot n : Nat}
    (h : slotPoint s station slot = some n) : (getPoint s n).quality ≠ .forced := by
  unfold slotPoint at h
  split at h
  · split at h
    · cases h
    next hf => cases h; exact hf
  · cases h

/-- R27: no pair of a frame sets a FORCED point. -/
theorem pairWrites_not_forced (s : State) (f : Frame) :
    ∀ w ∈ pairWrites s f, (getPoint s w.1).quality ≠ .forced := by
  intro w hw
  simp only [pairWrites, List.mem_filterMap, Option.map_eq_some_iff] at hw
  obtain ⟨q, -, n, hn, rfl⟩ := hw
  exact slotPoint_not_forced hn

theorem preservesAll_applySample (f : Frame) (s : State) (hk : k.points = false) :
    PreservesAll k s (applySample f s) :=
  preservesAll_setImage_foldl k (fun w : Nat × Word16 => w.1) (fun w => ⟨w.2, .fresh, 0⟩) _ _ s hk
    fun _ => pairWrites_not_forced s f

theorem preservesAll_takeSample (f : Frame) (s : State) (hk : k.points = false) :
    PreservesAll k s (takeSample f s) := by
  unfold takeSample
  exact .ite ((preservesAll_putStation k f.src.toNat
    { getStation s f.src.toNat with lastSeq := some f.sequence } s rfl).trans
    (preservesAll_applySample k f _ hk)) (.refl k s)

/-- FRESH points that become STALE are not FORCED. -/
theorem preservesAll_stalePoints (due : List Nat) (s : State) (hk : k.points = false)
    (hd : ∀ n ∈ due, (getPoint s n).quality = .fresh) :
    PreservesAll k s (setImage (due.foldl
      (fun t n => putPoint t n { getPoint s n with quality := .stale }) s.points) due s) :=
  preservesAll_setImage_foldl k (fun n : Nat => n) (fun n => { getPoint s n with quality := .stale })
    due due s hk fun _ n hn e => by rw [hd n hn] at e; cases e

theorem preservesAll_staleStation (n : Nat) (s : State) (hk : k.points = false) :
    PreservesAll k s (staleStation n s) := by
  refine preservesAll_stalePoints k _ s hk fun m hm => ?_
  simp only [List.mem_map, List.mem_filter, Bool.and_eq_true, decide_eq_true_eq] at hm
  obtain ⟨e, ⟨-, -, fresh⟩, rfl⟩ := hm
  exact fresh

theorem preservesAll_staleByAge (s : State) (hk : k.points = false) :
    PreservesAll k s (staleByAge s) := by
  refine preservesAll_stalePoints k _ s hk fun m hm => ?_
  simp only [List.mem_map, List.mem_filter, Bool.and_eq_true, decide_eq_true_eq] at hm
  obtain ⟨e, ⟨-, fresh, -⟩, rfl⟩ := hm
  exact fresh

theorem preservesAll_silenceStation (n : Nat) (s : State) (hk : k.points = false) :
    PreservesAll k s (silenceStation n s) := by
  unfold silenceStation
  dsimp only
  split
  next e he =>
    exact .ite ((((preservesAll_putStation k n
      { getStation s n with state := .silent, lastSeq := none, silenceFlag := true } s rfl).trans
      (preservesAll_staleStation k n _ hk)).then (keepsAll_tell _ _ _)).then (keepsAll_routine _ _))
      (.refl k s)
  next => exact .refl k s

/-! ## The management unit (R163, R164) -/

theorem keepsAll_replyTo (r : Request) (result : ReplyResult) (data : List Byte) (s : State) :
    KeepsAll s (replyTo r result data s) := keepsAll_routine _ s

theorem keepsAll_reply (code tag : Byte) (result : ReplyResult) (data : List Byte) (s : State) :
    KeepsAll s (reply code tag result data s) := keepsAll_routine _ s

theorem preservesAll_handleRequest (r : Request) (s : State) :
    PreservesAll k s (handleRequest r s) := by
  unfold handleRequest enqueue
  refine .ite ((keepsAll_replyTo _ _ _ s).preservesAll k) ?_
  split
  next room =>
    refine preservesAll_manage k s _ s.staging fun _ => ?_
    simp only [Config.manageCap] at room
    simp only [List.length_append, List.length_singleton]
    omega
  next => exact (keepsAll_replyTo _ _ _ s).preservesAll k

theorem preservesAll_acceptManage (p : Port) (f : Frame) (s : State) :
    PreservesAll k s (acceptManage p f s) := by
  unfold acceptManage
  split
  · split
    · exact (keepsAll_reply _ _ _ _ s).preservesAll k
    · exact (keepsAll_reply _ _ _ _ s).preservesAll k
    · exact (keepsAll_reply _ _ _ _ s).preservesAll k
    · exact preservesAll_handleRequest k _ s
  · exact (keepsAll_routine _ s).preservesAll k

/-! ## Disposal (R6 to R9) -/

theorem preservesAll_judge (f : Frame) (o : Port) (s : State) : PreservesAll k s (judge f o s) := by
  obtain keeps | ⟨x, room, keeps⟩ := keeps_judge f o s
  · exact keeps.preservesAll k
  · refine PreservesAll.then (preservesAll_queues k s (s.hold ++ [x]) s.reports s.overflow
      s.rebuilding s.classes fun b => ⟨?_, b.reports⟩) keeps
    simp only [List.length_append, List.length_singleton]
    omega

theorem preservesAll_onSample (p : Port) (f : Frame) (s : State) (hk : k.points = false) :
    PreservesAll k s (onSample p f s) := by
  have applied := (preservesAll_takeSample k f s hk).settle
  unfold onSample
  dsimp only
  split
  · exact applied.then (keepsAll_forwardFrame _ _ _)
  · exact applied
  · exact applied

theorem preservesAll_onVoice (p : Port) (f : Frame) (s : State) : PreservesAll k s (onVoice p f s) := by
  unfold onVoice
  split
  · exact (keepsAll_produce _ s (onVoice_keeps s _ _)).preservesAll k
  · split
    · exact (keepsAll_offerDToB f s).preservesAll k
    · exact .refl k s
    · exact .refl k s

/-- A frame that is forwarded when its destination is across, and otherwise discarded. -/
theorem preservesAll_carry (p : Port) (f : Frame) (s : State) : PreservesAll k s
    (match destination s p f with
     | .across => forwardFrame p f s
     | .part => s
     | .near => s) := by
  split
  · exact (keepsAll_forwardFrame p f s).preservesAll k
  · exact .refl k s
  · exact .refl k s

theorem preservesAll_onReport (p : Port) (f : Frame) (s : State) :
    PreservesAll k s (onReport p f s) := preservesAll_carry k p f s

theorem preservesAll_onOrderToBridge (p : Port) (f : Frame) (s : State) :
    PreservesAll k s (onOrderToBridge p f s) := preservesAll_carry k p f s

theorem preservesAll_onManage (p : Port) (f : Frame) (s : State) :
    PreservesAll k s (onManage p f s) := by
  unfold onManage
  split
  · exact preservesAll_acceptManage k p f s
  · exact (keepsAll_forwardFrame p f s).preservesAll k
  · exact .refl k s

theorem preservesAll_onOrder (p : Port) (f : Frame) (s : State) :
    PreservesAll k s (onOrder p f s) := by
  unfold onOrder
  split
  · exact preservesAll_judge k f p s
  · exact preservesAll_judge k f p s
  · exact .refl k s

theorem preservesAll_dispose (p : Port) (f : Frame) (s : State) (hk : k.points = false) :
    PreservesAll k s (dispose p f s) := by
  unfold dispose
  split
  · exact preservesAll_onSample k p f s hk
  · exact preservesAll_onVoice k p f s
  · exact preservesAll_onReport k p f s
  · exact preservesAll_onManage k p f s
  · exact preservesAll_onOrderToBridge k p f s
  · exact preservesAll_onOrder k p f s

/-- R1 to R6: the arrival of a frame. Where the scope keeps the field points, a valid frame is of the
command's own row, and so no SAMPLE in the guise of another command. -/
theorem preservesAll_receive {p : Port} {bytes : List Byte} {row : FrameRow}
    {own : Port → Frame → State → State} (s : State)
    (hrow : k.points = true → frameOfRow p bytes row = true)
    (hown : ∀ f t, PreservesAll k t (own p f t)) :
    PreservesAll k s (receive p bytes row own s) := by
  unfold receive
  split
  next => exact (preservesAll_malformed k p s).settle
  next f hf =>
    split
    next => exact (keepsAll_routine _ s).preservesAll k
    next =>
      refine ((preservesAll_heard k p f s).settle.trans ?_).settle
      split
      next => exact hown f _
      next other =>
        refine preservesAll_dispose k p f _ (Bool.eq_false_iff.2 fun w => other ?_)
        simpa [frameOfRow, hf] using hrow w

end

/-! # Proofs: what ticks and expiries keep -/

section
variable (k : Scope)

/-! ## Ticks (R22, R178) -/

theorem Point.tick_quality (p : Point) : p.tick.quality = p.quality := by
  unfold Point.tick
  split <;> rfl

theorem Point.tick_value (p : Point) : p.tick.value = p.value := by
  unfold Point.tick
  split <;> rfl

theorem Point.tick_listed {p : Point} (h : p ≠ {}) : p.tick ≠ {} := by
  unfold Point.tick
  split
  next => exact h
  next fresh => exact fun e => fresh (congrArg Point.quality e)

theorem getPoint_map_tick (s : State) (n : Nat) :
    (Tab.get? (s.points.map (fun e => (e.1, e.2.tick))) n).getD {} = (getPoint s n).tick := by
  rw [Tab.get?_map s.points (fun _ => Point.tick) n, getPoint]
  cases Tab.get? s.points n <;> rfl

theorem preservesAll_tick10 (s : State) (hk : k.points = false) : PreservesAll k s (tick10 s) := by
  unfold tick10
  refine PreservesAll.then ?_ (KeepsAll.foldl (fun t a => keepsAll_publishAxis a _ t) _ _)
  have aged : PreservesAll k s { s with points := s.points.map (fun e => (e.1, e.2.tick)) } := by
    refine preservesAll_points k s _ s.events hk (fun _ n _ hn => ?_) fun c =>
      ⟨Tab.sorted_map _ (fun e => e.2.tick) c.points, fun e he => ?_⟩
    · change (Point.quality ((Tab.get? _ n).getD {})) = _ ∧ Point.value ((Tab.get? _ n).getD {}) = _
      rw [getPoint_map_tick, Point.tick_quality, Point.tick_value]
      exact ⟨hn, rfl⟩
    · obtain ⟨x, hx, rfl⟩ := List.mem_map.1 he
      exact Point.tick_listed (c.pointsListed x hx)
  exact aged.then (keepsAll_mapZones (fun w => { w with wait := w.wait.tick10 }) _ fun _ => rfl)

theorem Station.tick_entry (x : Station) : x.tick.entry = x.entry := by
  unfold Station.tick
  split <;> rfl

theorem Station.tick_listed {x : Station} (h : x ≠ {}) : x.tick ≠ {} := by
  unfold Station.tick
  split
  next online => simp [online]
  next => exact h

theorem preservesAll_tickStations (s : State) :
    PreservesAll k s { s with stations := s.stations.map (fun e => (e.1, e.2.tick)) } := by
  refine preservesAll_stations k s _ (fun _ n => ?_) fun c =>
    ⟨Tab.sorted_map _ (fun e => e.2.tick) c.stations, fun e he => ?_⟩
  · rw [Tab.get?_map s.stations (fun _ => Station.tick) n, getStation]
    cases Tab.get? s.stations n
    · rfl
    · exact Station.tick_entry _
  · obtain ⟨x, hx, rfl⟩ := List.mem_map.1 he
    exact Station.tick_listed (c.stationsListed x hx)

theorem Door.tick_cfg (x : Door) : x.tick.cfg = x.cfg := by
  unfold Door.tick
  split <;> rfl

/-- Calls that ask for the same and own the same leave the ownership as it is. -/
theorem preservesAll_mapCalls (f : Call → Call) (s : State)
    (hf : ∀ c, SameAsk c (f c) ∧ (f c).owned = c.owned) :
    PreservesAll k s { s with calls := s.calls.map f } :=
  ⟨preserves_calls k s _ s.lastNumber fun b => by simpa using b.calls, fun o => owned_map f o hf⟩

theorem preservesAll_tick100 (s : State) : PreservesAll k s (tick100 s) := by
  have link : PreservesAll k s { s with link := s.link.tick s.settings.silenceLimit } := by
    unfold Link.tick
    split
    · exact preservesAll_link k s _ fun b => ⟨b.safety, b.voice, b.forward, b.dToB⟩
    · exact .refl k s
  have queues := fun u : State => preservesAll_queues k u (u.hold.map HoldEntry.tick) u.reports
    u.overflow u.rebuilding (u.classes.map ClassState.tick) fun b =>
      ⟨by simpa using b.hold, b.reports⟩
  exact (((((link.trans (preservesAll_tickStations k _)).trans (queues _)).trans
    (preservesAll_mapDoors k _ Door.tick Door.tick_cfg)).then
    (keepsAll_mapZones Zone.tick _ fun _ => rfl)).trans
    (preservesAll_mapCalls k Call.tick _ fun _ => ⟨⟨rfl, rfl⟩, rfl⟩))

/-! ## The ends of sent frames, expiries and occurrences -/

theorem preservesAll_endWindow (s : State) : PreservesAll k s (endWindow s) :=
  (preservesAll_setErrors k .d 0 false s).trans (preservesAll_setErrors k .b 0 false _)

theorem preservesAll_finishD (s : State) : PreservesAll k s (finishD s) := by
  unfold finishD
  split
  · exact .refl k s
  · refine PreservesAll.then (PreservesAll.then ?_ (keepsAll_orderSent _ _)) (keepsAll_kickD _)
    exact preservesAll_link k s _ fun b => ⟨b.safety, b.voice, b.forward, b.dToB⟩

theorem preservesAll_finishB (s : State) : PreservesAll k s (finishB s) := by
  unfold finishB
  split
  · exact .refl k s
  · refine PreservesAll.then ?_ (keepsAll_kickB _)
    exact preservesAll_link k s _ fun b => ⟨b.safety, b.voice, b.forward, b.dToB⟩

theorem keepsAll_occurrenceExpires (c : OccurrenceClass) (s : State) :
    KeepsAll s (occurrenceExpires c s) := by
  unfold occurrenceExpires
  exact .ite ((keepsAll_setClass _ _ s).trans (keepsAll_classesChanged _ _ _)) (.refl s)

theorem keepsAll_chimeEnds (n : Nat) (s : State) : KeepsAll s (chimeEnds n s) := by
  unfold chimeEnds
  exact .ite (keepsAll_tickCalls _ s) (.refl s)

theorem keepsAll_sourceLost (n : Nat) (s : State) : KeepsAll s (sourceLost n s) := by
  unfold sourceLost
  exact .ite (keepsAll_tickCalls _ s) (.refl s)

theorem keepsAll_durationExpires (n : Nat) (s : State) : KeepsAll s (durationExpires n s) :=
  keepsAll_endFirst _ _ s

/-! ## The update of an axis (R74) -/

theorem preservesAll_updateAxis (a : AxisId) (i : AxisInputs) (s : State)
    (hf : k.feedback a = false) (ht : k.travel a = false) :
    PreservesAll k s (updateAxis a i s) := by
  have inputs := takeInputs_keeps (getAxis s a) i
  refine PreservesAll.then (preservesAll_setAxis k s a _ (fun _ => inputs.1)
    (by rw [inputs.2]) (fun w => ?_) (fun w => ?_)) (keepsAll_updateAxis a i s)
  · simp [hf] at w
  · simp [ht] at w

end

end Sys2Proof.Machine

/-! # Proofs: what the completion of a request keeps -/

namespace Sys2Proof.Machine

open Sys2Proof

/-! ## SET_MODE (R176) -/

/-- The fault responses may be set aside while operations run that keep them (assumption 30). -/
theorem KeepsAll.withResponses {s t : State} {x : Vector Response 8}
    (h : KeepsAll { s with responses := x } t) : KeepsAll s { t with responses := s.responses } where
  frozen := by
    have hf := h.frozen
    simp only [frozenOf, Frozen.mk.injEq] at hf ⊢
    simp [hf]
  points := h.points
  counters := h.counters
  doors := h.doors
  zones := h.zones
  bounded := fun b => { h.bounded { b with } with }
  canonical := fun c => { h.canonical { c with } with }
  held := h.held
  owned := h.owned

theorem keepsAll_clearLatches (s : State) :
    KeepsAll s (allAxes.foldl (fun u a => modifyAxis a (fun x => { x with latch := false }) u) s) :=
  KeepsAll.foldl (fun t a => keepsAll_modifyAxis a (fun x => { x with latch := false }) t
    fun _ => ⟨rfl, le_refl _⟩) _ s

theorem keepsAll_enterConfig (cause : ModeCause) (s : State) :
    KeepsAll s (enterConfig cause s) :=
  (((keepsAll_mode s .config).trans (keepsAll_refuseHeld .mode _)).trans
    (keepsAll_clearLatches _)).trans (keepsAll_announceMode _ _ _ _)

theorem keepsAll_respondLate (before t : State) : KeepsAll t (respondLate before t) := by
  unfold respondLate
  split
  · exact .ite (keepsAll_enterSafe _ t) (.refl t)
  · exact .refl t

/-- R126: the triggers are evaluated while the fault responses are set aside. -/
theorem KeepsAll.rearmAside {s t : State} (h : KeepsAll s t) (x : Vector Response 8) :
    KeepsAll s { rearmTriggers { t with responses := x } with responses := s.responses } := by
  have responses : t.responses = s.responses := congrArg Frozen.responses h.frozen
  rw [← responses]
  exact h.trans (keepsAll_rearmTriggers { t with responses := x }).withResponses

theorem keepsAll_leaveConfig (new : Mode) (cause : ModeCause) (s : State) :
    KeepsAll s (leaveConfig new cause s) := by
  unfold leaveConfig
  refine KeepsAll.trans (KeepsAll.trans (KeepsAll.rearmAside ?_ _) (keepsAll_announceMode _ _ _ _))
    (keepsAll_respondLate s _)
  exact .ite ((keepsAll_mode s new).trans (keepsAll_tellSafe _)) (keepsAll_mode s new)

theorem keepsAll_departConfig (new : Mode) (tag : Byte) (s : State) :
    KeepsAll s (departConfig new tag s).1 := by
  unfold departConfig
  split
  · exact .refl s
  · split
    · dsimp only
      exact keepsAll_leaveConfig _ _ s
    · dsimp only
      exact keepsAll_leaveConfig _ _ s

theorem keepsAll_setMode (m : Nat) (tag : Byte) (s : State) : KeepsAll s (setMode m tag s).1 := by
  unfold setMode
  split
  · exact .refl s
  · split
    · exact keepsAll_enterConfig (.request tag) s
    · exact .refl s
  · exact keepsAll_departConfig .run tag s
  · exact .refl s
  · split
    · exact .refl s
    · dsimp only
      exact (keepsAll_mode s .run).trans (keepsAll_announceMode _ _ _ _)
  · exact keepsAll_departConfig .safe tag s
  · dsimp only
    exact keepsAll_enterSafe _ s
  · exact .refl s
  · exact .refl s

section
variable (k : Scope)

/-! ## Completion (R165) -/

theorem preservesAll_popRequest (s : State) :
    PreservesAll k s { s with manage := s.manage.tail } :=
  preservesAll_manage k s _ s.staging fun b => by
    have := b.manage
    simp only [List.length_tail]
    omega

theorem preservesAll_completeHead (r : Request) (effect : State → State × ReplyResult × List Byte)
    (s : State) (h : PreservesAll k s (effect s).1) :
    PreservesAll k s (completeHead r effect s) :=
  (h.settle.then (keepsAll_replyTo r _ _ _)).trans (preservesAll_popRequest k _)

theorem preservesAll_completeRead (wanted : ReqBody → Bool) (s : State) :
    PreservesAll k s (completeRead wanted s) := by
  unfold completeRead
  split
  · exact .ite (preservesAll_completeHead k _ _ s (.refl k s)) (.refl k s)
  · exact .refl k s

theorem preservesAll_forcePoint (n : Nat) (v : Word16) (s : State) (hk : k.points = false)
    (hf : k.forced = false) : PreservesAll k s (forcePoint n v s).1 := by
  unfold forcePoint
  split
  · exact preservesAll_setImage_one k n _ s hk fun w => by simp [hf] at w
  · exact .refl k s

theorem preservesAll_releasePoint (n : Nat) (s : State) (hk : k.points = false)
    (hf : k.forced = false) : PreservesAll k s (releasePoint n s).1 := by
  unfold releasePoint
  split
  · split
    · exact preservesAll_setImage_one k n _ s hk fun w => by simp [hf] at w
    · exact .refl k s
  · exact .refl k s

theorem preservesAll_clearTravel (a : Nat) (s : State) (ht : ∀ b, k.travel b = false) :
    PreservesAll k s (clearTravel a s).1 := by
  unfold clearTravel
  split
  · exact preservesAll_setAxis k s _ _ (fun _ => rfl) (le_refl _) (fun _ => rfl)
      fun w => by simp [ht] at w
  · exact .refl k s

/-! ## The tables (R166) -/

/-- A Station Table entry changes with its slot (R19). -/
theorem preservesAll_putStationEntry (n : Nat) (e : Option StationEntry) (s : State)
    (hk : k.tables = false) : PreservesAll k s (putStationEntry n e s) := by
  have put : ∀ x, PreservesAll k s (putStation n x s) := fun x =>
    { pending := rfl
      bounded := fun b => { b with }
      canonical := fun c =>
        { c with
          stations := (canonical_putStation n x c).1
          stationsListed := (canonical_putStation n x c).2 }
      tables := fun w => by simp [hk] at w
      points := fun _ _ _ => rfl
      forced := fun _ => .of_points fun _ _ => rfl
      feedback := fun _ _ => rfl
      travel := fun _ _ => rfl
      owned := id }
  unfold putStationEntry
  exact .ite ((put _).then (keepsAll_tell _ _ _)) (put _)

theorem preservesAll_mapTable (t : Tab MapEntry) (s : State) (hk : k.tables = false)
    (hs : Canonical s → Tab.Sorted t = true) : PreservesAll k s { s with pointMap := t } :=
  preservesAll_tables k s t s.rules s.doors s.zones s.programs s.templates s.audioZones s.responses
    s.settings hk fun c => ⟨hs c, c.rules, c.doors, c.zones, c.programs, c.templates, c.audioZones⟩

theorem preservesAll_putMapEntry (n : Nat) (e : Option MapEntry) (s : State)
    (hk : k.tables = false) (hp : k.points = false) : PreservesAll k s (putMapEntry n e s) := by
  unfold putMapEntry
  extract_lets t
  have entered : PreservesAll k s t := preservesAll_mapTable k _ s hk fun c => by
    cases e
    · exact Tab.sorted_erase _ n c.pointMap
    · exact Tab.sorted_set _ n _ c.pointMap
  split
  next => exact entered
  next old _ =>
    split
    next => exact entered
    next unforced =>
      exact entered.trans (preservesAll_setImage_one k old.point {} t hp fun _ => unforced)

theorem preservesAll_ruleTable (t : Tab Rule) (s : State) (hk : k.tables = false)
    (hs : Canonical s → Tab.Sorted t = true) : PreservesAll k s { s with rules := t } :=
  preservesAll_tables k s s.pointMap t s.doors s.zones s.programs s.templates s.audioZones s.responses
    s.settings hk fun c => ⟨c.pointMap, hs c, c.doors, c.zones, c.programs, c.templates, c.audioZones⟩

theorem preservesAll_putRule (n : Nat) (e : Option Rule) (s : State) (hk : k.tables = false) :
    PreservesAll k s (putRule n e s) := by
  unfold putRule
  refine PreservesAll.then (preservesAll_ruleTable k _ s hk fun c => ?_) (keepsAll_ruleChanged n _)
  cases e
  · exact Tab.sorted_erase _ n c.rules
  · exact Tab.sorted_set _ n _ c.rules

theorem preservesAll_writeAxis (a : AxisId) (c : AxisCfg) (s : State) (hk : k.tables = false) :
    PreservesAll k s (writeAxis a c s) := by
  refine PreservesAll.then ?_ (keepsAll_publishAxis a _ _)
  refine preservesAll_setAxis k s a _ (fun w => by simp [hk] at w) (le_of_eq ?_) (fun _ => ?_)
    fun _ => ?_ <;> split <;> rfl

theorem preservesAll_clearAxis (a : AxisId) (s : State) (hk : k.tables = false) :
    PreservesAll k s (clearAxis a s) := by
  unfold clearAxis
  extract_lets x t
  have cleared : PreservesAll k s t :=
    (preservesAll_setAxis k s a { x with
      cfg := none, state := .disabled, phase := .none, cause := none, current := none, stop := none
      pending := [], run := none, latch := false, pulses := 0
      prev := #v[false, false, false, false] } (fun w => by simp [hk] at w) (Nat.zero_le _)
      (fun _ => rfl) fun _ => rfl).then (keepsAll_publishAxis a [0, 1, 4, 6] _)
  exact .ite (cleared.then (keepsAll_tell _ _ _)) cleared

theorem preservesAll_doorTable (t : Tab Door) (s : State) (hk : k.tables = false)
    (hs : Canonical s → Tab.Sorted t = true) : PreservesAll k s { s with doors := t } :=
  preservesAll_tables k s s.pointMap s.rules t s.zones s.programs s.templates s.audioZones s.responses
    s.settings hk fun c => ⟨c.pointMap, c.rules, hs c, c.zones, c.programs, c.templates, c.audioZones⟩

theorem doorPoint_above (d : Nat) : 512 ≤ Config.doorPoint d := by
  unfold Config.doorPoint
  omega

theorem keepsAll_writeDoorPoint (d v : Nat) (s : State) :
    KeepsAll s (writePoints [(Config.doorPoint d, v)] s) :=
  keepsAll_writePoints _ s (by simp [doorPoint_above])

theorem preservesAll_writeDoor (d : Nat) (c : DoorCfg) (s : State) (hk : k.tables = false) :
    PreservesAll k s (writeDoor d c s) :=
  ((preservesAll_doorTable k _ s hk fun h => Tab.sorted_set _ d _ h.doors).then
    (keepsAll_writeDoorPoint d _ _)).then (keepsAll_tell _ _ _)

theorem preservesAll_clearDoor (d : Nat) (s : State) (hk : k.tables = false) :
    PreservesAll k s (clearDoor d s) :=
  ((preservesAll_doorTable k _ s hk fun h => Tab.sorted_erase _ d h.doors).then
    (keepsAll_clearPoints _ _ (by simp [doorPoint_above]))).then (keepsAll_tell _ _ _)

theorem preservesAll_zoneTable (t : Tab Zone) (s : State) (hk : k.tables = false)
    (hs : Canonical s → Tab.Sorted t = true) : PreservesAll k s { s with zones := t } :=
  preservesAll_tables k s s.pointMap s.rules s.doors t s.programs s.templates s.audioZones s.responses
    s.settings hk fun c => ⟨c.pointMap, c.rules, c.doors, hs c, c.programs, c.templates, c.audioZones⟩

theorem preservesAll_writeZone (z : Nat) (c : ZoneCfg) (s : State) (hk : k.tables = false) :
    PreservesAll k s (writeZone z c s) :=
  ((preservesAll_zoneTable k _ s hk fun h => Tab.sorted_set _ z _ h.zones).then
    (keepsAll_publishZones _)).then (keepsAll_evalTrigger z _)

theorem preservesAll_clearZone (z : Nat) (s : State) (hk : k.tables = false) :
    PreservesAll k s (clearZone z s) :=
  (preservesAll_zoneTable k _ s hk fun h => Tab.sorted_erase _ z h.zones).then
    (keepsAll_clearPoints _ _ (by simp only [List.mem_cons, List.not_mem_nil, or_false,
      Config.zonePoint, Config.gatePoint]; omega))

theorem preservesAll_programTable (t : Tab (List ProgStep)) (s : State) (hk : k.tables = false)
    (hs : Canonical s → Tab.Sorted t = true) : PreservesAll k s { s with programs := t } :=
  preservesAll_tables k s s.pointMap s.rules s.doors s.zones t s.templates s.audioZones s.responses
    s.settings hk fun c => ⟨c.pointMap, c.rules, c.doors, c.zones, hs c, c.templates, c.audioZones⟩

theorem preservesAll_templateTable (t : Tab Template) (s : State) (hk : k.tables = false)
    (hs : Canonical s → Tab.Sorted t = true) : PreservesAll k s { s with templates := t } :=
  preservesAll_tables k s s.pointMap s.rules s.doors s.zones s.programs t s.audioZones s.responses
    s.settings hk fun c => ⟨c.pointMap, c.rules, c.doors, c.zones, c.programs, hs c, c.audioZones⟩

theorem preservesAll_settings (rp : Vector Response 8) (st : Settings) (s : State)
    (hk : k.tables = false) : PreservesAll k s { s with responses := rp, settings := st } :=
  preservesAll_tables k s s.pointMap s.rules s.doors s.zones s.programs s.templates s.audioZones rp st
    hk fun c => ⟨c.pointMap, c.rules, c.doors, c.zones, c.programs, c.templates, c.audioZones⟩

theorem keepsAll_refreshRequests (s : State) : KeepsAll s (refreshRequests s) := by
  unfold refreshRequests
  exact .ite (.refl s) (keepsAll_recompute_of
    (keeps_calls s _ s.lastNumber fun b => by simpa using b.calls))

theorem preservesAll_audioZoneTable (t : Tab AudioZone) (s : State) (hk : k.tables = false)
    (hs : Canonical s → Tab.Sorted t = true) : PreservesAll k s { s with audioZones := t } :=
  preservesAll_tables k s s.pointMap s.rules s.doors s.zones s.programs s.templates t s.responses
    s.settings hk fun c => ⟨c.pointMap, c.rules, c.doors, c.zones, c.programs, c.templates, hs c⟩

theorem preservesAll_putAudioZone (n : Nat) (e : Option AudioZone) (s : State)
    (hk : k.tables = false) : PreservesAll k s (putAudioZone n e s) := by
  unfold putAudioZone
  refine PreservesAll.then (preservesAll_audioZoneTable k _ s hk fun c => ?_)
    (keepsAll_refreshRequests _)
  cases e
  · exact Tab.sorted_erase _ n c.audioZones
  · exact Tab.sorted_set _ n _ c.audioZones

theorem preservesAll_putResponse (n : Nat) (r : Response) (s : State) (hk : k.tables = false) :
    PreservesAll k s (putResponse n r s) :=
  preservesAll_settings k _ s.settings s hk

variable {k}

theorem preservesAll_clearTable (hk : k.tables = false) (hp : k.points = false) (t i : Nat)
    (s : State) : PreservesAll k s (clearTable t i s).1 := by
  unfold clearTable
  split
  · exact preservesAll_putStationEntry k i none s hk
  · exact preservesAll_putMapEntry k i none s hk hp
  · exact preservesAll_putRule k i none s hk
  · exact preservesAll_clearAxis k _ s hk
  · exact preservesAll_clearDoor k i s hk
  · exact preservesAll_clearZone k i s hk
  · exact preservesAll_programTable k _ s hk fun c => Tab.sorted_erase _ i c.programs
  · split
    · exact .refl k s
    · exact preservesAll_templateTable k _ s hk fun c => Tab.sorted_erase _ i c.templates
  · exact preservesAll_putAudioZone k i none s hk
  · exact preservesAll_putResponse k i .goOn s hk
  · exact preservesAll_settings k s.responses {} s hk

theorem preservesAll_writeValid (hk : k.tables = false) (hp : k.points = false) (t i : Nat)
    (bs : List Byte) (s : State) : PreservesAll k s (writeValid t i bs s).1 := by
  unfold writeValid
  split
  · split
    · exact .refl k s
    · split
      next => exact .refl k s
      next m _ _ => exact preservesAll_putMapEntry k i (some m) s hk hp
  · split
    · exact .refl k s
    · split
      next => exact .refl k s
      next r _ _ => exact preservesAll_putRule k i (some r) s hk
  · split
    · exact .refl k s
    · exact preservesAll_writeAxis k _ _ s hk
  · split
    · exact .refl k s
    · split
      · exact .refl k s
      · exact preservesAll_writeDoor k i _ s hk
  · split
    · exact .refl k s
    · split
      · exact .refl k s
      · exact preservesAll_writeZone k i _ s hk
  · split
    · exact .refl k s
    · split
      · exact .refl k s
      · exact preservesAll_programTable k _ s hk fun c => Tab.sorted_set _ i _ c.programs
  · split
    · exact .refl k s
    · split
      · exact .refl k s
      · exact preservesAll_templateTable k _ s hk fun c => Tab.sorted_set _ i _ c.templates

theorem preservesAll_writeTable (hk : k.tables = false) (hp : k.points = false) (t i : Nat)
    (bs : List Byte) (s : State) : PreservesAll k s (writeTable t i bs s).1 := by
  unfold writeTable
  split
  · split
    · exact .refl k s
    · exact preservesAll_putStationEntry k i _ s hk
  · split
    · exact .refl k s
    · exact preservesAll_putAudioZone k i _ s hk
  · split
    · exact .refl k s
    · exact preservesAll_putResponse k i _ s hk
  · split
    · exact .refl k s
    · exact preservesAll_settings k s.responses _ s hk
  · split
    · exact .refl k s
    · exact preservesAll_clearTable hk hp t i s
    · exact preservesAll_writeValid hk hp t i bs s

theorem preservesAll_writeRecord (hk : k.tables = false) (hp : k.points = false) (t i : Nat)
    (bs : List Byte) (s : State) : PreservesAll k s (writeRecord t i bs s).1 := by
  unfold writeRecord
  split
  · exact .refl k s
  · split
    · exact .refl k s
    · split
      · exact .refl k s
      · exact preservesAll_writeTable hk hp t i bs s

theorem preservesAll_clearRecord (hk : k.tables = false) (hp : k.points = false) (t i : Nat)
    (s : State) : PreservesAll k s (clearRecord t i s).1 := by
  unfold clearRecord
  split
  · exact .refl k s
  · split
    · exact .refl k s
    · exact preservesAll_clearTable hk hp t i s

theorem preservesAll_staging (g : Option Staging) (s : State) :
    PreservesAll k s { s with staging := g } :=
  preservesAll_manage k s s.manage g fun b => b.manage

theorem preservesAll_writePart (hk : k.tables = false) (hp : k.points = false) (t i part : Nat)
    (bs : List Byte) (more : Bool) (s : State) :
    PreservesAll k s (writePart t i part bs more s).1 := by
  unfold writePart
  split
  · split
    · split
      · exact preservesAll_staging _ s
      · exact preservesAll_staging _ s
    · exact preservesAll_writeRecord hk hp t i bs s
  · split
    · exact preservesAll_staging _ s
    · dsimp only
      split
      · split
        · exact preservesAll_staging _ s
        · exact preservesAll_staging _ s
      · exact (preservesAll_staging _ s).trans (preservesAll_writeRecord hk hp t i _ _)

end

end Sys2Proof.Machine

/-! # Proofs: what a warm restart keeps -/

namespace Sys2Proof.Machine

open Sys2Proof

section
variable {α : Type}

/-- Reading a table whose records were changed or left out, where the record stays. -/
theorem Tab.get?_filterMap_of_some {t : Tab α} (g : Nat → α → Option α) {n : Nat} {v w : α}
    (hv : Tab.get? t n = some v) (hw : g n v = some w) :
    Tab.get? (t.filterMap (fun e => (g e.1 e.2).map (fun x => (e.1, x)))) n = some w := by
  induction t with
  | nil => simp at hv
  | cons e t ih =>
    obtain ⟨m, x⟩ := e
    rw [Tab.get?_cons] at hv
    rw [List.filterMap_cons]
    split at hv
    next hm =>
      cases hv
      subst hm
      simp [hw, Tab.get?_cons]
    next hm =>
      cases g m x with
      | none => exact ih hv
      | some y => simpa [Tab.get?_cons, hm] using ih hv

/-- A number below every listed one is not listed. -/
theorem Tab.get?_of_below {t : Tab α} {n : Nat} (h : ∀ e ∈ t, n < e.1) : Tab.get? t n = none := by
  cases hn : Tab.get? t n with
  | none => rfl
  | some v => exact absurd (h _ (Tab.get?_mem hn)) (lt_irrefl n)

/-- Reading a sorted table whose records were changed or left out. -/
theorem Tab.get?_filterMap {t : Tab α} (g : Nat → α → Option α) (n : Nat)
    (ht : Tab.Sorted t = true) :
    Tab.get? (t.filterMap (fun e => (g e.1 e.2).map (fun x => (e.1, x)))) n =
      (Tab.get? t n).bind (g n) := by
  induction t with
  | nil => rfl
  | cons e t ih =>
    obtain ⟨m, x⟩ := e
    obtain ⟨above, ht⟩ := (Tab.sorted_cons m x t).1 ht
    rw [List.filterMap_cons, Tab.get?_cons]
    by_cases hm : m = n
    · subst hm
      cases hg : g m x with
      | none => simp [ih ht, Tab.get?_of_below above, hg]
      | some y => simp [Tab.get?_cons, hg]
    · cases g m x with
      | none => simpa [hm] using ih ht
      | some y => simpa [Tab.get?_cons, hm] using ih ht

end

section
variable (k : Scope)

/-! ## The queues, the image, the stations and the axes -/

theorem preservesAll_restartBegin (s : State) : PreservesAll k s (restartBegin s) :=
  (preservesAll_manage k s (s.manage.take 1) none fun _ => by
    have := List.length_take_le 1 s.manage
    omega).trans (preservesAll_queues k _ [] [] false (some []) s.classes fun _ => by simp)

theorem restartPoint_of_forced {s : State} {n : Nat} {p : Point} (hn : n ≤ 511)
    (hp : p.quality = .forced) : restartPoint s n p = some p := by
  rw [restartPoint, if_neg (by omega), if_pos hp]

theorem restartPoint_listed {s : State} {n : Nat} {p q : Point} (hp : p ≠ {})
    (h : restartPoint s n p = some q) : q ≠ {} := by
  unfold restartPoint at h
  split at h
  · cases h
  · split at h
    · cases h; exact hp
    · split at h
      · cases h; exact fun e => Quality.noConfusion (congrArg Point.quality e)
      · cases h

/-- R37: a FORCED field point stands through a restart, and the image stays canonical. -/
theorem preservesAll_restartPoints (s : State) (hk : k.points = false) :
    PreservesAll k s (restartPoints s) := by
  refine preservesAll_points k s _ s.events hk (fun _ n hn hf => ?_) fun c =>
    ⟨Tab.sorted_filterMap _ (fun e => restartPoint s e.1 e.2) c.points, fun e he => ?_⟩
  · cases hp : Tab.get? s.points n with
    | none => simp [getPoint, hp] at hf
    | some p =>
      simp only [getPoint, hp, Option.getD_some] at hf ⊢
      rw [Tab.get?_filterMap_of_some (restartPoint s) hp (restartPoint_of_forced hn hf)]
      exact ⟨hf, rfl⟩
  · simp only [List.mem_filterMap, Option.map_eq_some_iff] at he
    obtain ⟨x, hx, q, hq, rfl⟩ := he
    exact restartPoint_listed (c.pointsListed x hx) hq

/-- R19: one station at a warm restart. -/
def Station.restarted (x : Station) : Station :=
  { x with state := .unseen, count := 0, lastSeq := none }

theorem restartStations_eq (s : State) : restartStations s =
    { s with
      stations := (s.stations.map (fun e => (e.1, e.2.restarted))).filter
        (fun e => decide (e.2 ≠ {})) } := rfl

/-- Leaving the empty slots out of a sorted list changes no slot as it reads. -/
theorem getD_filter_listed {t : Tab Station} (n : Nat) (ht : Tab.Sorted t = true) :
    (Tab.get? (t.filter (fun e => decide (e.2 ≠ {}))) n).getD {} = (Tab.get? t n).getD {} := by
  induction t with
  | nil => rfl
  | cons e t ih =>
    obtain ⟨m, x⟩ := e
    obtain ⟨above, ht⟩ := (Tab.sorted_cons m x t).1 ht
    have ih := ih ht
    by_cases hx : x = {}
    · rw [List.filter_cons_of_neg (by simp [hx]), ih, Tab.get?_cons]
      split
      next hm => subst hm; simp [Tab.get?_of_below above, hx]
      next => rfl
    · rw [List.filter_cons_of_pos (by simp [hx]), Tab.get?_cons, Tab.get?_cons]
      split
      · rfl
      · exact ih

/-- R19: every station after a restart. -/
theorem getStation_restartStations {s : State} (c : Canonical s) (n : Nat) :
    getStation (restartStations s) n = (getStation s n).restarted := by
  rw [restartStations_eq, getStation]
  dsimp only
  rw [getD_filter_listed n (Tab.sorted_map _ (fun e => e.2.restarted) c.stations),
    Tab.get?_map s.stations (fun _ => Station.restarted) n, getStation]
  cases Tab.get? s.stations n <;> rfl

theorem preservesAll_restartStations (s : State) : PreservesAll k s (restartStations s) := by
  rw [restartStations_eq]
  refine preservesAll_stations k s _ (fun c n => ?_) fun c =>
    ⟨Tab.sorted_filter _ _ (Tab.sorted_map _ (fun e => e.2.restarted) c.stations),
      fun e he => by simpa using (List.mem_filter.1 he).2⟩
  have restarted := congrArg Station.entry (getStation_restartStations c n)
  exact restarted

theorem preservesAll_restartAxes (s : State) : PreservesAll k s (restartAxes s) :=
  preservesAll_mapAxes k s Axis.restarted [] (fun _ => rfl) (fun _ => Nat.zero_le _) (fun _ => rfl)
    fun _ => rfl

/-! ## The calls, the doors and the zones -/

theorem keeps_restartCalls_foldl (s u : State) (l : List Call) (h : Keeps s u)
    (hb : Bounded s → u.calls.length + l.length ≤ 16) :
    Keeps s (l.foldl (fun t c => match startsAgain s c, Tab.get? s.templates c.template with
      | some z, some tpl => joinCall (newCall t c.template tpl (.zone z) tpl.zones) t
      | _, _ => t) u) := by
  induction l generalizing u with
  | nil => exact h
  | cons c l ih =>
    simp only [List.length_cons] at hb
    rw [List.foldl_cons]
    split
    · refine ih _ (keeps_joinCall _ h fun b => ?_) fun b => ?_
      · have := hb b
        omega
      · have := hb b
        simp only [joinCall, callReport_calls, List.length_append, List.length_singleton]
        omega
    · refine ih _ h fun b => ?_
      have := hb b
      omega

/-- R162: as many calls start again as there were, at most. -/
theorem keeps_restartCalls (s : State) : Keeps s (restartCalls s) :=
  keeps_restartCalls_foldl s _ s.calls (keeps_calls s [] s.lastNumber fun _ => by simp)
    fun b => by simpa using b.calls

theorem keepsAll_restartDoor (d : Nat) (s : State) : KeepsAll s (restartDoor d s) := by
  unfold restartDoor
  split
  next x hx =>
    extract_lets y
    exact (keepsAll_setDoor d x y s hx rfl).trans (keepsAll_writeDoorPoint d _ _)
  next => exact .refl s

theorem keepsAll_restartDoors (s : State) : KeepsAll s (restartDoors s) :=
  KeepsAll.foldl (fun t (e : Nat × Door) => keepsAll_restartDoor e.1 t) _ s

theorem keepsAll_restartZone (z : Nat) (s : State) : KeepsAll s (restartZone z s) := by
  unfold restartZone
  split
  next => exact .refl s
  next w hw =>
    extract_lets v
    have set : ∀ u : Zone, u.cfg = w.cfg → KeepsAll s (setZone z u s) :=
      fun u hu => keepsAll_setZone z w u s hw hu
    split
    · exact (set { v with timer := w.cfg.alertTime } rfl).trans (keepsAll_startAlertCall z _)
    · split
      · split
        · exact (set v rfl).trans (keepsAll_walkFrom z 1 _)
        · exact (set v rfl).trans (keepsAll_leaveClosing z _)
      · exact (set v rfl).trans (keepsAll_leaveClosing z _)
    · exact set v rfl
    · exact set v rfl
    · exact set v rfl

theorem keepsAll_restartReclose (z : Nat) (s : State) : KeepsAll s (restartReclose z s) := by
  unfold restartReclose
  split
  · split
    · exact keepsAll_setReclose z _ s
    · exact (keepsAll_recloseRound z s).trans (keepsAll_setReclose z _ _)
    · exact .refl s
    · exact .refl s
    · exact .refl s
  · exact .refl s

theorem keepsAll_restartZones (s : State) : KeepsAll s (restartZones s) :=
  ((KeepsAll.foldl (fun t (e : Nat × Zone) => keepsAll_restartZone e.1 t) _ s).trans
    (keepsAll_publishZones _)).trans
    (KeepsAll.foldl (fun t (e : Nat × Zone) => keepsAll_restartReclose e.1 t) _ _)

theorem keeps_restartOwners (s : State) : Keeps s (restartOwners s) :=
  (keeps_recompute s).trans (keepsAll_writePoints _ _ (ownerWrites_above _)).toKeeps

theorem owned_restartOwners (s : State) : Owned (restartOwners s) :=
  (keepsAll_writePoints _ _ (ownerWrites_above _)).owned (owned_recompute s)

theorem keepsAll_restartPublish (s : State) : KeepsAll s (restartPublish s) :=
  (KeepsAll.foldl (fun t a => keepsAll_publishAxis a _ t) _ s).trans (keepsAll_writeBridge _ _)

theorem keepsAll_restartControl (s : State) : KeepsAll s (restartControl s) := by
  unfold restartControl
  refine KeepsAll.trans (KeepsAll.trans (KeepsAll.foldl (fun t c => ?_) _ s) (keepsAll_mode _ _))
    (keepsAll_writePoints _ _ (by simp [Config.modePoint, Config.faultPoint]))
  exact (keepsAll_setClass c _ t).trans (keepsAll_recount c _)

/-! ## The restart (R174) -/

/-- The calls lose their owned sets as they start again, and get them back when ownership is
recomputed (R162). -/
theorem preservesAll_rebuild (s : State) (hk : k.points = false) : PreservesAll k s (rebuild s) := by
  have blocks := ((preservesAll_restartPoints k s hk).trans (preservesAll_restartStations k _)).trans
    (preservesAll_restartAxes k _)
  have owners := blocks.toPreserves.trans <|
    (((keeps_restartCalls _).trans (keepsAll_restartDoors _).toKeeps).trans
      (keepsAll_restartZones _).toKeeps |>.trans (keeps_restartOwners _)).preserves k
  exact ((PreservesAll.mk owners fun _ => owned_restartOwners _).then
    (keepsAll_restartPublish _)).then (keepsAll_restartControl _)

theorem preservesAll_restartReports (r : Request) (held reports requests : Nat) (s : State) :
    PreservesAll k s (restartReports r held reports requests s) :=
  (((preservesAll_queues k s s.hold s.reports s.overflow none s.classes fun b =>
    ⟨b.hold, b.reports⟩).then (keepsAll_alarm _ _)).then (keepsAll_replyTo r _ _ _)).then
    (KeepsAll.foldl (fun t x => keepsAll_offerReport x t) _ _)

theorem preservesAll_warmRestart (r : Request) (s : State) (hk : k.points = false) :
    PreservesAll k s (warmRestart r s) :=
  (((((preservesAll_restartBegin k s).trans (preservesAll_rebuild k _ hk)).trans
    (preservesAll_restartReports k r _ _ _ _)).trans (preservesAll_popRequest k _)).then
    (keepsAll_evalTriggers _)).settle

/-! ## Power-on reset -/

theorem sorted_resetPoints : Tab.Sorted State.resetPoints = true := by decide

theorem listed_resetPoints : ∀ e ∈ State.resetPoints, e.2 ≠ {} := by decide

/-- The image right after reset, with the flags points as the inputs stand. -/
theorem canonical_flagsPoints (v : AxisId → Word16) (l : List AxisId) (t : Tab Point)
    (h : Tab.Sorted t = true ∧ ∀ e ∈ t, e.2 ≠ {}) :
    Tab.Sorted (l.foldl (fun t a => Tab.set t (Config.axisPoint a.val 4) ⟨v a, .fresh, 0⟩) t) = true ∧
    ∀ e ∈ l.foldl (fun t a => Tab.set t (Config.axisPoint a.val 4) ⟨v a, .fresh, 0⟩) t,
      e.2 ≠ {} := by
  induction l generalizing t with
  | nil => exact h
  | cons a l ih =>
    refine ih _ ⟨Tab.sorted_set _ _ _ h.1, fun e he => ?_⟩
    obtain rfl | he := Tab.mem_set he
    · exact fun e => Quality.noConfusion (congrArg Point.quality e)
    · exact h.2 e he

theorem getAxis_powerOn (pins : Vector AxisPins 4) (s : State) (a : AxisId) :
    getAxis (powerOn pins s) a = resetAxis pins[a] := by
  simp [powerOn, getAxis]

theorem bounded_powerOn (pins : Vector AxisPins 4) (s : State) : Bounded (powerOn pins s) where
  safety := Nat.zero_le _
  voice := Nat.zero_le _
  forward := Nat.zero_le _
  dToB := Nat.zero_le _
  reports := Nat.zero_le _
  hold := Nat.zero_le _
  manage := Nat.zero_le _
  calls := Nat.zero_le _
  moves := fun a => by rw [getAxis_powerOn]; exact Nat.zero_le _

theorem canonical_powerOn (pins : Vector AxisPins 4) (s : State) : Canonical (powerOn pins s) :=
  have image := canonical_flagsPoints
    (fun a => BitVec.ofNat 16 ((pins.map resetAxis)[a]).flags) allAxes State.resetPoints
    ⟨sorted_resetPoints, listed_resetPoints⟩
  { points := image.1
    pointsListed := image.2
    stations := rfl
    stationsListed := fun _ h => absurd h List.not_mem_nil
    pointMap := rfl
    rules := rfl
    doors := rfl
    zones := rfl
    programs := rfl
    templates := rfl
    audioZones := rfl }

/-- In a scope that leaves everything open, a reset is a command like any other. -/
theorem preservesAll_powerOn (pins : Vector AxisPins 4) (s : State) (ht : k.tables = false)
    (hp : k.points = false) (hf : k.forced = false) (hb : ∀ a, k.feedback a = false)
    (hv : ∀ a, k.travel a = false) : PreservesAll k s (powerOn pins s) where
  pending := rfl
  bounded := fun _ => bounded_powerOn pins s
  canonical := fun _ => canonical_powerOn pins s
  tables := fun w => by simp [ht] at w
  points := fun w => by simp [hp] at w
  forced := fun w => by simp [hf] at w
  feedback := fun a w => by simp [hb] at w
  travel := fun a w => by simp [hv] at w
  owned := fun _ => rfl

end

/-! # Proofs: every command -/

/-- What a command leaves as it is: the tables but for their writes, the field points but for the
commands that touch them (and a SAMPLE in the guise of another command), the FORCED ones but for
the commands that end forcing, the counters but for an axis's own update and CLEAR_TRAVEL. -/
def scopeOf (c : Instr) : Scope where
  tables := !writesTables c
  points := c.wf && !touchesFieldPoints c
  forced := !endsForcing c
  feedback := fun a => !countsAxis a c
  travel := fun a => !countsAxis a c && decide (c ≠ .clearTravel)

/-- The command of a frame keeps what its scope says. -/
theorem preservesAll_frame {c : Instr} {p : Port} {bytes : List Byte} {row : FrameRow}
    {own : Port → Frame → State → State} (s : State)
    (hwf : c.wf = true → frameOfRow p bytes row = true)
    (hown : ∀ f t, PreservesAll (scopeOf c) t (own p f t)) :
    PreservesAll (scopeOf c) s (receive p bytes row own s) :=
  preservesAll_receive _ s (fun w => hwf ((Bool.and_eq_true _ _).mp w).1) hown

theorem frameOfRow_of_readEventOk {p : Port} {bytes : List Byte} {code : Nat}
    (h : readEventOk (.arrives p bytes) code = true) : frameOfRow p bytes .manage = true := by
  unfold readEventOk frameOfRow at *
  dsimp only at h
  split at h
  next => simp
  next f hf =>
    simp only [Bool.and_eq_true, decide_eq_true_eq] at h
    simp [rowOf, h.1.1]

theorem preservesAll_read {c : Instr} {p : Port} {bytes : List Byte} {code : Nat} (s : State)
    (hwf : c.wf = readEventOk (.arrives p bytes) code) :
    PreservesAll (scopeOf c) s (receive p bytes .manage onManage s) :=
  preservesAll_frame s (fun w => frameOfRow_of_readEventOk (hwf ▸ w))
    fun f t => preservesAll_onManage _ p f t

/-! ## The requests at the head -/

section
variable {k : Scope} {s t : State}

theorem preservesAll_execWriteEntry (hk : k.tables = false) (hp : k.points = false)
    (h : execWriteEntry s = .next t) : PreservesAll k s t := by
  unfold execWriteEntry at h
  split at h
  · split at h
    · cases h
      exact preservesAll_completeHead k _ _ s (preservesAll_writePart hk hp _ _ _ _ _ s)
    · cases h
      exact .refl k s
  · cases h
    exact .refl k s

theorem preservesAll_execClearEntry (hk : k.tables = false) (hp : k.points = false)
    (h : execClearEntry s = .next t) : PreservesAll k s t := by
  unfold execClearEntry at h
  split at h
  · split at h
    · cases h
      exact preservesAll_completeHead k _ _ s (preservesAll_clearRecord hk hp _ _ s)
    · cases h
      exact .refl k s
  · cases h
    exact .refl k s

theorem preservesAll_execForcePoint (hp : k.points = false) (hf : k.forced = false)
    (h : execForcePoint s = .next t) : PreservesAll k s t := by
  unfold execForcePoint at h
  split at h
  · split at h
    · cases h
      exact preservesAll_completeHead k _ _ s (preservesAll_forcePoint k _ _ s hp hf)
    · cases h
      exact .refl k s
  · cases h
    exact .refl k s

theorem preservesAll_execReleasePoint (hp : k.points = false) (hf : k.forced = false)
    (h : execReleasePoint s = .next t) : PreservesAll k s t := by
  unfold execReleasePoint at h
  split at h
  · split at h
    · cases h
      exact preservesAll_completeHead k _ _ s (preservesAll_releasePoint k _ s hp hf)
    · cases h
      exact .refl k s
  · cases h
    exact .refl k s

theorem preservesAll_execSetMode (h : execSetMode s = .next t) : PreservesAll k s t := by
  unfold execSetMode at h
  split at h
  · split at h
    · cases h
      refine preservesAll_completeHead k _ _ s ?_
      dsimp only
      exact (keepsAll_setMode _ _ s).preservesAll k
    · cases h
      exact .refl k s
  · cases h
    exact .refl k s

theorem preservesAll_execClearTravel (ht : ∀ b, k.travel b = false)
    (h : execClearTravel s = .next t) : PreservesAll k s t := by
  unfold execClearTravel at h
  split at h
  · split at h
    · cases h
      exact preservesAll_completeHead k _ _ s (preservesAll_clearTravel k _ s ht)
    · cases h
      exact .refl k s
  · cases h
    exact .refl k s

theorem preservesAll_execRestart (hp : k.points = false) (h : execRestart s = .next t) :
    PreservesAll k s t := by
  unfold execRestart at h
  split at h
  next r _ _ =>
    split at h
    next =>
      obtain rfl : warmRestart r s = t := Host.Outcome.next.inj h
      exact preservesAll_warmRestart k r s hp
    next =>
      cases h
      exact .refl k s
  next =>
    cases h
    exact .refl k s

end

/-! ## The commands -/

/-- A command that touches the field points leaves them open. -/
theorem scopeOf_points {c : Instr} (h : touchesFieldPoints c = true) : (scopeOf c).points = false := by
  simp [scopeOf, h]

/-- Every command keeps what its scope says, and every command keeps the waiting commands, the
capacities, the canonical form and the ownership of the audio zones. -/
theorem exec_preservesAll {c : Instr} {s t : State} (h : exec c s = .next t) :
    PreservesAll (scopeOf c) s t := by
  cases c with
  | powerOnReset pins =>
    cases h
    exact preservesAll_powerOn _ pins s rfl (scopeOf_points rfl) rfl (fun _ => rfl) fun _ => rfl
  | sample p b =>
    cases h
    exact preservesAll_frame s id fun f u => preservesAll_onSample _ p f u (scopeOf_points rfl)
  | voice p b => cases h; exact preservesAll_frame s id fun f => preservesAll_onVoice _ p f
  | report p b => cases h; exact preservesAll_frame s id fun f => preservesAll_onReport _ p f
  | orderToBridge p b =>
    cases h
    exact preservesAll_frame s id fun f => preservesAll_onOrderToBridge _ p f
  | manage p b => cases h; exact preservesAll_frame s id fun f => preservesAll_onManage _ p f
  | doorClose p b | doorOpen p b | outputOrder p b | move p b | axisGo p b | axisStop p b
  | axisClear p b | zoneAlert p b | zoneCloseNow p b | zoneCancel p b | zoneRelease p b
  | callStart p b | callEnd p b | unknownOrderToPart p b =>
    cases h
    exact preservesAll_frame s id fun f => preservesAll_onOrder _ p f
  | writeEntry => exact preservesAll_execWriteEntry rfl (scopeOf_points rfl) h
  | clearEntry => exact preservesAll_execClearEntry rfl (scopeOf_points rfl) h
  | forcePoint => exact preservesAll_execForcePoint (scopeOf_points rfl) rfl h
  | releasePoint => exact preservesAll_execReleasePoint (scopeOf_points rfl) rfl h
  | setMode => exact preservesAll_execSetMode h
  | clearTravel => exact preservesAll_execClearTravel (fun _ => rfl) h
  | restart => exact preservesAll_execRestart (scopeOf_points rfl) h
  | readEntry e | readPoints e | readStatus e =>
    cases e with
    | arrives p b => cases h; exact preservesAll_read s rfl
    | completes => cases h; exact preservesAll_completeRead _ _ s
  | dPortFrameSent => cases h; exact (preservesAll_finishD _ s).settle
  | bPortFrameSent => cases h; exact (preservesAll_finishB _ s).settle
  | errorWindowEnd => cases h; exact (preservesAll_endWindow _ s).settle
  | axisUpdate a i =>
    cases h
    exact (preservesAll_updateAxis _ a i s (by simp [scopeOf, countsAxis])
      (by simp [scopeOf, countsAxis])).settle
  | tick10Ms =>
    obtain rfl : settle (tick10 s) = t := Host.Outcome.next.inj h
    exact (preservesAll_tick10 _ s (scopeOf_points rfl)).settle
  | staleLimit => cases h; exact (preservesAll_staleByAge _ s (scopeOf_points rfl)).settle
  | voiceTick => cases h; exact ((keepsAll_tickCalls _ s).preservesAll _).settle
  | chimeEnd n => cases h; exact ((keepsAll_chimeEnds n s).preservesAll _).settle
  | sourceLost n => cases h; exact ((keepsAll_sourceLost n s).preservesAll _).settle
  | bridgeSilence =>
    cases h
    exact (PreservesAll.ite (preservesAll_declareSilence _ s) (.refl _ s)).settle
  | stationSilence n =>
    cases h
    exact (preservesAll_silenceStation _ n s (scopeOf_points rfl)).settle
  | holdExpired => cases h; exact ((keepsAll_expireHeld s).preservesAll _).settle
  | closeLimitExpiry d => cases h; exact ((keepsAll_closeLimitExpires d s).preservesAll _).settle
  | alertTimerExpiry z => cases h; exact ((keepsAll_alertExpires z s).preservesAll _).settle
  | recloseTimerExpiry z => cases h; exact ((keepsAll_recloseExpires z s).preservesAll _).settle
  | awaitLimit z => cases h; exact ((keepsAll_awaitExpires z s).preservesAll _).settle
  | pause10Expiry z => cases h; exact ((keepsAll_pause10Expires z s).preservesAll _).settle
  | pause100Expiry z => cases h; exact ((keepsAll_pause100Expires z s).preservesAll _).settle
  | callDurationExpiry n => cases h; exact ((keepsAll_durationExpires n s).preservesAll _).settle
  | occurrenceTimerExpiry c => cases h; exact ((keepsAll_occurrenceExpires c s).preservesAll _).settle
  | holdRelease => cases h; exact ((keepsAll_releaseHeld s).preservesAll _).settle
  | awaitDoorsClosed z => cases h; exact ((keepsAll_reexamine z s).preservesAll _).settle
  | programStepReoffer z => cases h; exact ((keepsAll_reoffer z s).preservesAll _).settle
  | partnerAnnouncement a => cases h; exact ((keepsAll_partnerStep a s).preservesAll _).settle
  | tick100Ms => cases h; exact (preservesAll_tick100 _ s).settle

/-- No command faults and none is refused: each has a next state. -/
theorem exec_answers_next (c : Instr) (s : State) : ∃ t, exec c s = .next t := by
  cases c with
  | writeEntry | clearEntry | forcePoint | releasePoint | setMode | clearTravel | restart =>
    simp only [exec, execWriteEntry, execClearEntry, execForcePoint, execReleasePoint, execSetMode,
      execClearTravel, execRestart]
    split
    · split <;> exact ⟨_, rfl⟩
    · exact ⟨_, rfl⟩
  | readEntry e | readPoints e | readStatus e => cases e <;> exact ⟨_, rfl⟩
  | _ => exact ⟨_, rfl⟩

/-- A step runs the front command on the state with the queue's rest, or idles. -/
theorem step_cases {s t : State} (h : step s = .next t) :
    t = s ∨ ∃ c rest, exec c { s with pending := rest } = .next t := by
  unfold step at h
  split at h
  · cases h
    exact Or.inl rfl
  · exact Or.inr ⟨_, _, h⟩

/-! ## What the commands keep, obligation by obligation -/

/-- Settles O15: FORCED field points stand in the scope of every command that does not end forcing. -/
theorem forcedPointStandsUntilReleased : Obligations.ForcedPointStandsUntilReleased := by
  unfold Obligations.ForcedPointStandsUntilReleased
  intro c s t n hc h hn hf
  exact (exec_preservesAll h).forced (by simp [scopeOf, hc]) n hn hf

/-- Settles O16: the field points are in the scope of every well-formed command but ten. -/
theorem fieldPointsKeptByOtherCommands : Obligations.FieldPointsKeptByOtherCommands := by
  unfold Obligations.FieldPointsKeptByOtherCommands
  intro c s t n hw hc h hn
  exact (exec_preservesAll h).points (by simp [scopeOf, hw, hc]) n hn

/-- Settles O47: every command keeps the ownership, whatever its scope. -/
theorem ownershipKeptByEveryCommand : Obligations.OwnershipKeptByEveryCommand := by
  unfold Obligations.OwnershipKeptByEveryCommand
  intro c s t ho h
  exact (exec_preservesAll h).owned ho

/-- Settles O57: the tables are in the scope of every command that does not write them. -/
theorem tablesChangeOnlyByTheirWrites : Obligations.TablesChangeOnlyByTheirWrites := by
  unfold Obligations.TablesChangeOnlyByTheirWrites
  intro c s t hs hc h
  exact (exec_preservesAll h).tables (by simp [scopeOf, hc]) hs

/-- Settles O58: every command keeps the capacities; taking it from the queue does not touch them. -/
theorem capacitiesKeptByEveryStep : Obligations.CapacitiesKeptByEveryStep := by
  unfold Obligations.CapacitiesKeptByEveryStep
  intro s t hs h
  obtain rfl | ⟨c, rest, hc⟩ := step_cases h
  · exact hs
  · exact (exec_preservesAll hc).bounded { hs with }

/-- Settles O59: every command keeps the canonical form; taking it from the queue does not touch it. -/
theorem canonicalFormKeptByEveryStep : Obligations.CanonicalFormKeptByEveryStep := by
  unfold Obligations.CanonicalFormKeptByEveryStep
  intro s t hs h
  obtain rfl | ⟨c, rest, hc⟩ := step_cases h
  · exact hs
  · exact (exec_preservesAll hc).canonical { hs with }

/-- Settles O2: there is a next state, and every command keeps the waiting commands. -/
theorem everyCommandAnswersNext : Obligations.EveryCommandAnswersNext := by
  unfold Obligations.EveryCommandAnswersNext
  intro c s
  obtain ⟨t, h⟩ := exec_answers_next c s
  exact ⟨t, h, (exec_preservesAll h).pending⟩

/-- Settles O32: the feedback is in the scope of every command but the axis's own update and the
reset, the travel counter but for CLEAR_TRAVEL too. -/
theorem feedbackCountsOnlyInTheOwnUpdate : Obligations.FeedbackCountsOnlyInTheOwnUpdate := by
  unfold Obligations.FeedbackCountsOnlyInTheOwnUpdate
  intro c s t a hc h
  have keeps := exec_preservesAll h
  have feedback := keeps.feedback a (by simp [scopeOf, hc])
  simp only [Axis.feedback, Prod.mk.injEq] at feedback
  obtain ⟨fp, encA, encB, inputs⟩ := feedback
  exact ⟨fp, encA, encB, inputs, fun hne => keeps.travel a (by simp [scopeOf, hc, hne])⟩

end Sys2Proof.Machine

/-! # Proofs: steps and reset (R36, R176), and setting the point image (R23, R27, R30 to R32) -/

namespace Sys2Proof.Machine

open Sys2Proof

/-! ## Steps -/

/-- Settles O1: the two branches of a step. -/
theorem stepRunsFrontCommand : Obligations.StepRunsFrontCommand := by
  unfold Obligations.StepRunsFrontCommand
  refine ⟨fun c rest s waiting => ?front, fun s idle => ?idle⟩
  case front => simp only [step, waiting]
  case idle => simp only [step, idle]

/-! ## Power-on reset -/

/-- Settles O60: the queues and lists are empty, and the image is written out. -/
theorem resetMeetsTheInvariants : Obligations.ResetMeetsTheInvariants := by
  unfold Obligations.ResetMeetsTheInvariants
  refine ⟨?bounded, ?canonical, ?owned⟩
  case bounded => constructor <;> decide
  case canonical =>
    constructor
    case points => exact sorted_resetPoints
    case pointsListed => exact listed_resetPoints
    case stationsListed => exact fun _ h => absurd h List.not_mem_nil
    all_goals rfl
  case owned => rfl

section
variable {α : Type}

theorem Tab.get?_append (t u : Tab α) (n : Nat) :
    Tab.get? (t ++ u) n = (Tab.get? t n).or (Tab.get? u n) := by
  induction t with
  | nil => rfl
  | cons e t ih =>
    obtain ⟨k, v⟩ := e
    simp only [List.cons_append, Tab.get?_cons, ih]
    split_ifs <;> rfl

/-- A run of consecutive numbers that all hold one record. -/
theorem Tab.get?_range (base count n : Nat) (v : α) :
    Tab.get? ((List.range count).map (fun k => (base + k, v))) n =
      if base ≤ n ∧ n < base + count then some v else none := by
  induction count with
  | zero => simp
  | succ count ih =>
    rw [List.range_succ, List.map_append, Tab.get?_append, ih]
    simp only [List.map_cons, List.map_nil, Tab.get?_cons, Tab.get?_nil]
    split_ifs <;> first | rfl | omega

end

/-- Table 2-7: the image right after reset, read. -/
theorem getD_resetPoints (n : Nat) :
    (Tab.get? State.resetPoints n).getD {} =
      if 512 ≤ n ∧ n ≤ 543 then { value := 0, quality := .fresh, age := 0 }
      else if 672 ≤ n ∧ n ≤ 695 then { value := 7, quality := .fresh, age := 0 }
      else if n = 696 ∨ n = 698 then { value := 0, quality := .fresh, age := 0 }
      else { value := 0, quality := .never, age := 0 } := by
  simp only [State.resetPoints, Tab.get?_append, Tab.get?_range, Tab.get?_cons, Tab.get?_nil]
  split_ifs <;> first | rfl | omega

/-- Records set for the numbers of a list are read where the numbers differ. -/
theorem Tab.get?_foldl_set {α β : Type} (key : β → Nat) (val : β → α) (l : List β) (t : Tab α) (n : Nat)
    (hk : ∀ a b, key a = key b → a = b) :
    Tab.get? (l.foldl (fun t a => Tab.set t (key a) (val a)) t) n =
      match l.find? (fun a => decide (key a = n)) with
      | some a => some (val a)
      | none => Tab.get? t n := by
  induction l generalizing t with
  | nil => rfl
  | cons b l ih =>
    rw [List.foldl_cons, ih, List.find?_cons]
    by_cases hb : key b = n
    · simp only [hb, decide_true, Tab.get?_set]
      cases hf : l.find? (fun a => decide (key a = n)) with
      | none => simp
      | some a =>
        have ha : key a = n := by simpa using List.find?_some hf
        rw [hk a b (ha.trans hb.symm)]
    · simp only [hb, decide_false]
      rw [Tab.get?_set_other _ _ _ _ (fun e => hb e.symm)]

theorem axisPoint_injective {k : Nat} (a b : AxisId)
    (h : Config.axisPoint a.val k = Config.axisPoint b.val k) : a = b := by
  refine Fin.ext ?_
  unfold Config.axisPoint at h
  omega

theorem flags_resetAxis (p : AxisPins) : (resetAxis p).flags =
    16 * p.pins.upper.toNat + 32 * p.pins.lower.toNat + 64 * p.pins.contact.toNat +
      128 * p.pins.driveFault.toNat := by
  simp [Axis.flags, Axis.compFlag, Axis.isFollower, Axis.coupling, resetAxis]

theorem getPoint_powerOn (pins : Vector AxisPins 4) (s : State) (n : Nat) :
    getPoint (powerOn pins s) n =
      match allAxes.find? (fun a => decide (Config.axisPoint a.val 4 = n)) with
      | some a => ⟨BitVec.ofNat 16 (resetAxis pins[a]).flags, .fresh, 0⟩
      | none => (Tab.get? State.resetPoints n).getD {} := by
  have image := Tab.get?_foldl_set (fun a : AxisId => Config.axisPoint a.val 4)
    (fun a => (⟨BitVec.ofNat 16 (resetAxis pins[a]).flags, .fresh, 0⟩ : Point)) allAxes
    State.resetPoints n axisPoint_injective
  simp only [getPoint, powerOn, State.reset, Fin.getElem_fin, Vector.getElem_map] at image ⊢
  rw [image]
  cases allAxes.find? _ <;> rfl

theorem mem_allAxes (a : AxisId) : a ∈ allAxes := by
  unfold allAxes
  fin_cases a <;> decide

/-- The flags point of an axis shows its pins. -/
theorem getPoint_powerOn_flags (pins : Vector AxisPins 4) (s : State) (a : AxisId) :
    getPoint (powerOn pins s) (Config.axisPoint a.val 4) =
      ⟨BitVec.ofNat 16 (resetAxis pins[a]).flags, .fresh, 0⟩ := by
  rw [getPoint_powerOn]
  cases hf : allAxes.find? (fun b => decide (Config.axisPoint b.val 4 = Config.axisPoint a.val 4)) with
  | none => simpa using List.find?_eq_none.1 hf a (mem_allAxes a)
  | some b => rw [axisPoint_injective b a (by simpa using List.find?_some hf)]

theorem getPoint_powerOn_other (pins : Vector AxisPins 4) (s : State) (n : Nat)
    (h : ∀ a : AxisId, n ≠ Config.axisPoint a.val 4) :
    getPoint (powerOn pins s) n = (Tab.get? State.resetPoints n).getD {} := by
  rw [getPoint_powerOn, List.find?_eq_none.2 (fun a _ => by simpa using (h a).symm)]

/-- Settles O3: every field as the reset writes it; the axes and the image by the lemmas above. -/
theorem powerOnResetLeavesResetValues : Obligations.PowerOnResetLeavesResetValues := by
  unfold Obligations.PowerOnResetLeavesResetValues
  intro pins s
  refine ⟨powerOn pins s, rfl, rfl, rfl, rfl, rfl, rfl, rfl, rfl, rfl, rfl, rfl, rfl, rfl, rfl, rfl, rfl,
    rfl, rfl, rfl, rfl, rfl, rfl, ?classes, ?responses, rfl, ?axes, ?flags, ?points⟩
  case classes => intro c; cases c <;> rfl
  case responses => intro c; cases c <;> rfl
  case axes => exact getAxis_powerOn pins s
  case flags =>
    intro a
    rw [← flags_resetAxis]
    exact getPoint_powerOn_flags pins s a
  case points =>
    intro n other
    rw [getPoint_powerOn_other pins s n other, getD_resetPoints]

/-! ## One cause sets the image (R23) -/

section
variable (new : Tab Point) (touched : List Nat) (s : State)

theorem getPoint_setImage (n : Nat) :
    getPoint (setImage new touched s) n = (Tab.get? new n).getD {} := by
  obtain ⟨es, image⟩ := setImage_cases new touched s
  rw [image]
  rfl

/-- R23: a point whose value or quality differs between two states. -/
def Differs (s t : State) (n : Nat) : Prop :=
  (getPoint t n).value ≠ (getPoint s n).value ∨ (getPoint t n).quality ≠ (getPoint s n).quality

theorem mem_changedPoints (n : Nat) :
    n ∈ changedPoints s.points new touched ↔ n ∈ touched ∧ Differs s (setImage new touched s) n := by
  rw [Differs, getPoint_setImage]
  simp only [changedPoints, List.mem_filter, Bool.or_eq_true, decide_eq_true_eq]
  exact and_congr_right' (or_congr ne_comm ne_comm)

theorem setImage_of_unchanged (h : changedPoints s.points new touched = []) :
    setImage new touched s = { s with points := new } := by
  simp [setImage, h]

theorem setImage_of_changed (h : changedPoints s.points new touched ≠ []) :
    setImage new touched s =
      { s with points := new, events := s.events ++ [(changedPoints s.points new touched).dedup] } := by
  obtain ⟨n, hn⟩ := List.exists_mem_of_ne_nil _ h
  have named : (changedPoints s.points new touched).dedup.isEmpty = false := by
    rw [List.isEmpty_eq_false_iff]
    exact List.ne_nil_of_mem (List.mem_dedup.2 hn)
  simp [setImage, named]

theorem setImage_unchanged_of_same (same : ∀ n, ¬Differs s (setImage new touched s) n) :
    setImage new touched s = { s with points := new } := by
  refine setImage_of_unchanged new touched s (List.eq_nil_iff_forall_not_mem.2 (fun n hn => ?_))
  exact same n ((mem_changedPoints new touched s n).1 hn).2

/-- No point changed, no event. -/
theorem setImage_events_of_same (same : ∀ n, ¬Differs s (setImage new touched s) n) :
    (setImage new touched s).events = s.events := by
  rw [setImage_unchanged_of_same new touched s same]

variable (h : ∀ n, n ∉ touched → (Tab.get? new n).getD {} = getPoint s n)
include h

theorem mem_touched_of_differs {n : Nat} (hn : Differs s (setImage new touched s) n) : n ∈ touched := by
  by_contra off
  rw [Differs, getPoint_setImage, h n off] at hn
  exact hn.elim (· rfl) (· rfl)

/-- The event names exactly the points that changed. -/
theorem setImage_events_of_differs (differ : ∃ n, Differs s (setImage new touched s) n) :
    ∃ names, (setImage new touched s).events = s.events ++ [names] ∧
      ∀ n, n ∈ names ↔ Differs s (setImage new touched s) n := by
  have named (n : Nat) : n ∈ changedPoints s.points new touched ↔ Differs s (setImage new touched s) n :=
    (mem_changedPoints new touched s n).trans
      (and_iff_right_of_imp (mem_touched_of_differs new touched s h))
  obtain ⟨n, hn⟩ := differ
  refine ⟨(changedPoints s.points new touched).dedup, ?_, fun m => List.mem_dedup.trans (named m)⟩
  rw [setImage_of_changed new touched s (List.ne_nil_of_mem ((named n).2 hn))]

end

/-- Setting points one after the other: the last record set for a point is the one read. -/
theorem getD_foldl_putPoint_last {α : Type} (key : α → Nat) (val : α → Point) (l : List α)
    (t : Tab Point) (n : Nat) :
    (Tab.get? (l.foldl (fun t x => putPoint t (key x) (val x)) t) n).getD {} =
      match (l.filter (fun x => decide (key x = n))).getLast? with
      | some x => val x
      | none => (Tab.get? t n).getD {} := by
  induction l using List.reverseRecOn with
  | nil => rfl
  | append_singleton l x ih =>
    rw [List.foldl_append, List.foldl_cons, List.foldl_nil, getD_putPoint, List.filter_append]
    by_cases hx : key x = n
    · simp [hx]
    · rw [if_neg (fun e => hx e.symm), ih]
      simp [hx]

/-! ## Samples (R27) -/

theorem pairWrites_eq (s : State) (f : Frame) : pairWrites s f = f.pairs.filterMap (fun q =>
    (s.pointMap.find? (fun e => decide (e.2.station = f.src.toNat) && decide (e.2.slot = q.1))).bind
      (fun e => if (getPoint s e.2.point).quality = .forced then none
        else some (e.2.point, q.2))) := by
  unfold pairWrites
  congr 1
  funext q
  unfold slotPoint
  cases s.pointMap.find? _ with
  | none => rfl
  | some e => simp only [Option.bind_some]; split_ifs <;> rfl

/-- Settles O8: the image by the last record set for each point, the event by R23. -/
theorem samplePairsSetTheirPoints : Obligations.SamplePairsSetTheirPoints := by
  unfold Obligations.SamplePairsSetTheirPoints
  rintro f s ws rfl
  rw [← pairWrites_eq]
  have read (n : Nat) : getPoint (applySample f s) n =
      match ((pairWrites s f).filter (fun w => decide (w.1 = n))).getLast? with
      | some w => { value := w.2, quality := .fresh, age := 0 }
      | none => getPoint s n := by
    have last := (getPoint_setImage _ ((pairWrites s f).map (·.1)) s n).trans
      (getD_foldl_putPoint_last (fun w : Nat × Word16 => w.1) (fun w => ⟨w.2, .fresh, 0⟩)
        (pairWrites s f) s.points n)
    refine Eq.trans last ?_
    cases ((pairWrites s f).filter (fun w => decide (w.1 = n))).getLast? <;> rfl
  have off (n : Nat) (hn : n ∉ (pairWrites s f).map (·.1)) :=
    getD_foldl_putPoint (fun w : Nat × Word16 => w.1) (fun w => ⟨w.2, .fresh, 0⟩) (pairWrites s f)
      s.points n (fun w hw e => hn (List.mem_map.2 ⟨w, hw, e⟩))
  refine ⟨read, fun same => ?_, fun differ => setImage_events_of_differs _ _ s off differ⟩
  refine setImage_events_of_same _ _ s (fun n hn => ?_)
  exact hn.elim (fun v => v (same n).1) (fun q => q (same n).2)

/-! ## Forcing (R30, R31) -/

section
variable {s : State} {r : Request} {rest : List Request}

theorem exec_forcePoint {n : Nat} {v : Word16} (head : s.manage = r :: rest)
    (body : r.body = .forcePoint n v) : exec .forcePoint s =
      .next (completed r (forcePoint n v s).2 [] (forcePoint n v s).1) := by
  simp only [exec, execForcePoint, head, body]
  rfl

theorem exec_releasePoint {n : Nat} (head : s.manage = r :: rest) (body : r.body = .releasePoint n) :
    exec .releasePoint s = .next (completed r (releasePoint n s).2 [] (releasePoint n s).1) := by
  simp only [exec, execReleasePoint, head, body]
  rfl

end

theorem changedPoints_one (old new : Tab Point) (n : Nat) :
    changedPoints old new [n] =
      if ((Tab.get? old n).getD {}).value ≠ ((Tab.get? new n).getD {}).value ∨
        ((Tab.get? old n).getD {}).quality ≠ ((Tab.get? new n).getD {}).quality then [n] else [] := by
  simp only [changedPoints, List.filter_cons, List.filter_nil, Bool.or_eq_true, decide_eq_true_eq]

/-- Settles O14: the completions by their effects, the image of one set point by R23. -/
theorem forceAndReleasePoint : Obligations.ForceAndReleasePoint := by
  unfold Obligations.ForceAndReleasePoint
  refine ⟨fun r rest s head => ⟨?force, ?forceRange, ?release, ?releaseOther, ?releaseRange⟩, ?image⟩
  case force =>
    intro n v body hn
    rw [exec_forcePoint head body, forcePoint, if_pos hn]
  case forceRange =>
    intro n v body hn
    rw [exec_forcePoint head body, forcePoint, if_neg (by omega)]
  case release =>
    intro n body hn forced
    rw [exec_releasePoint head body, releasePoint, if_pos hn, if_pos forced]
  case releaseOther =>
    intro n body hn other
    rw [exec_releasePoint head body, releasePoint, if_pos hn, if_neg other]
  case releaseRange =>
    intro n body hn
    rw [exec_releasePoint head body, releasePoint, if_neg (by omega)]
  case image =>
    rintro n x s t rfl
    have changed := changedPoints_one s.points (putPoint s.points n x) n
    rw [getD_putPoint, if_pos rfl] at changed
    change _ = if (getPoint s n).value ≠ _ ∨ (getPoint s n).quality ≠ _ then _ else _ at changed
    refine ⟨?_, fun k hk => ?_, fun differ => ?_, fun value quality => ?_⟩
    · rw [getPoint_setImage, getD_putPoint, if_pos rfl]
    · rw [getPoint_setImage, getD_putPoint, if_neg hk]
      rfl
    · rw [if_pos (differ.imp Ne.symm Ne.symm)] at changed
      rw [setImage_of_changed _ _ s (by simp [changed]), changed]
      rfl
    · rw [if_neg (fun h => h.elim (· value.symm) (· quality.symm))] at changed
      exact setImage_of_unchanged _ _ s changed

end Sys2Proof.Machine

/-! # Proofs: the form of a frame (R2, R3, R10) -/

namespace Sys2Proof.Machine

open Sys2Proof

/-! ## Header words taken apart and put together -/

theorem append_extract {w v : Nat} (x : BitVec (w + v)) :
    (x.extractLsb' v w ++ x.extractLsb' 0 v : BitVec (w + v)) = x := by
  refine BitVec.eq_of_getLsbD_eq (fun i hi => ?_)
  rw [BitVec.getLsbD_append]
  split_ifs with low
  · simp [low]
  · have high : v + (i - v) = i := by omega
    simp [high, show i - v < w by omega]

theorem extract_append_high {w v : Nat} (x : BitVec w) (y : BitVec v) :
    (x ++ y).extractLsb' v w = x := by
  refine BitVec.eq_of_getLsbD_eq (fun i hi => ?_)
  simp [BitVec.getLsbD_append, hi]

theorem extract_append_low {w v : Nat} (x : BitVec w) (y : BitVec v) :
    (x ++ y).extractLsb' 0 v = y := by
  refine BitVec.eq_of_getLsbD_eq (fun i hi => ?_)
  simp [BitVec.getLsbD_append, hi]

/-- Bytes 1 and 2 of the header as one word: destination, source and flags. -/
theorem route_fields (w : Word16) :
    (w.extractLsb' 10 6 ++ w.extractLsb' 4 6 ++ w.extractLsb' 0 4 : Word16) = w := by
  refine BitVec.eq_of_getLsbD_eq (fun i hi => ?_)
  simp only [BitVec.getLsbD_append, BitVec.getLsbD_extractLsb']
  split_ifs with flags src
  · simp [flags]
  · simp [src, show 4 + (i - 4) = i by omega]
  · simp [show i - 4 - 6 < 6 by omega, show 10 + (i - 4 - 6) = i by omega]

section
variable (d s : BitVec 6) (g : BitVec 4)

theorem route_dest : (d ++ s ++ g : Word16).extractLsb' 10 6 = d := by
  refine BitVec.eq_of_getLsbD_eq (fun i hi => ?_)
  simp only [BitVec.getLsbD_extractLsb', BitVec.getLsbD_append]
  simp [hi, show ¬10 + i < 4 by omega, show ¬10 + i - 4 < 6 by omega,
    show 10 + i - 4 - 6 = i by omega]

theorem route_src : (d ++ s ++ g : Word16).extractLsb' 4 6 = s := by
  refine BitVec.eq_of_getLsbD_eq (fun i hi => ?_)
  simp only [BitVec.getLsbD_extractLsb', BitVec.getLsbD_append]
  simp [hi]

theorem route_flags : (d ++ s ++ g : Word16).extractLsb' 0 4 = g := by
  refine BitVec.eq_of_getLsbD_eq (fun i hi => ?_)
  simp only [BitVec.getLsbD_extractLsb', BitVec.getLsbD_append]
  simp [hi]

end

theorem ofCode_code (k : Kind) : Kind.ofCode k.code = some k := by
  cases k <;> rfl

theorem code_of_ofCode {c : BitVec 4} {k : Kind} (h : Kind.ofCode c = some k) : k.code = c := by
  unfold Kind.ofCode at h
  split_ifs at h with h1 h2 h3 h4 h5
  all_goals
    obtain rfl := Option.some.inj h
    exact Eq.symm ‹_›

theorem crcBytes_length (bs : List Byte) : (crcBytes bs).length = 2 := rfl

/-- Settles O4: each check of the reader finds what the writer wrote. -/
theorem sentFrameIsReadBack : Obligations.SentFrameIsReadBack := by
  unfold Obligations.SentFrameIsReadBack
  intro f short src0 src63 fits
  have length : (BitVec.ofNat 8 f.payload.length).toNat = f.payload.length :=
    BitVec.toNat_ofNat _ _ |>.trans (Nat.mod_eq_of_lt (by omega))
  have route : (f.route.extractLsb' 8 8 ++ f.route.extractLsb' 0 8 : Word16) = f.route :=
    append_extract (w := 8) (v := 8) f.route
  have src : f.route.extractLsb' 4 6 = f.src := route_src f.dest f.src f.flags
  have kind : (f.kind.code ++ f.cls : BitVec 8).extractLsb' 4 4 = f.kind.code :=
    extract_append_high f.kind.code f.cls
  have cls : (f.kind.code ++ f.cls : BitVec 8).extractLsb' 0 4 = f.cls :=
    extract_append_low f.kind.code f.cls
  have dest : f.route.extractLsb' 10 6 = f.dest := route_dest f.dest f.src f.flags
  have flags : f.route.extractLsb' 0 4 = f.flags := route_flags f.dest f.src f.flags
  have crc : f.body = (f.kind.code ++ f.cls : BitVec 8) :: f.route.extractLsb' 8 8 ::
    f.route.extractLsb' 0 8 :: BitVec.ofNat 8 f.payload.length :: f.payload := rfl
  rw [Frame.bytes, crc]
  simp only [List.cons_append, parseFrame]
  simp only [length, route, src, kind, cls, dest, flags, ofCode_code, crcBytes_length, fits, src0, src63,
    List.take_left, List.drop_left, List.length_append, not_lt.2 short, or_self, ne_eq, not_true,
    ↓reduceIte]

/-- Settles O5: the writer writes again what the reader's checks have read. -/
theorem forwardedFrameKeepsItsBytes : Obligations.ForwardedFrameKeepsItsBytes := by
  unfold Obligations.ForwardedFrameKeepsItsBytes
  intro bytes f spells
  unfold parseFrame at spells
  split at spells
  case h_2 => cases spells
  case h_1 b0 b1 b2 b3 rest =>
    dsimp only at spells
    split_ifs at spells with h1 h2 h3 h4
    split at spells
    case h_1 => cases spells
    case h_2 k hk =>
      split_ifs at spells with h5
      obtain rfl := Option.some.inj spells
      simp only [ne_eq, not_not] at h2 h3
      have take : (rest.take b3.toNat).length = b3.toNat := by simp [h2]
      have byte0 : (k.code ++ b0.extractLsb' 0 4 : BitVec 8) = b0 := by
        rw [code_of_ofCode hk]
        exact append_extract (w := 4) (v := 4) b0
      have byte1 : (b1 ++ b2 : Word16).extractLsb' 8 8 = b1 := extract_append_high b1 b2
      have byte2 : (b1 ++ b2 : Word16).extractLsb' 0 8 = b2 := extract_append_low b1 b2
      have body : Frame.body
          { kind := k, cls := b0.extractLsb' 0 4, dest := (b1 ++ b2 : Word16).extractLsb' 10 6
            src := (b1 ++ b2 : Word16).extractLsb' 4 6, flags := (b1 ++ b2 : Word16).extractLsb' 0 4
            payload := rest.take b3.toNat } = b0 :: b1 :: b2 :: b3 :: rest.take b3.toNat := by
        rw [Frame.body, Frame.route, route_fields, byte0, byte1, byte2, take, BitVec.ofNat_toNat,
          BitVec.setWidth_eq]
      rw [Frame.bytes, body, ← h3]
      simp only [List.cons_append, List.take_append_drop]

end Sys2Proof.Machine

/-! # Proofs: arriving frames, transmitters and silence (R4 to R9, R11, R15, R18, R20, R29, R172) -/

namespace Sys2Proof.Machine

open Sys2Proof

/-! ## Arriving frames -/

theorem exec_frameCommand (row : FrameRow) (p : Port) (bytes : List Byte) (s : State) :
    ∃ own, exec (frameCommand row p bytes) s = .next (receive p bytes row own s) := by
  cases row <;> exact ⟨_, rfl⟩

/-- Settles O6: a malformed frame and one from the wrong side are dropped before any row is looked at. -/
theorem droppedFramesAreCountedOrReported : Obligations.DroppedFramesAreCountedOrReported := by
  unfold Obligations.DroppedFramesAreCountedOrReported
  refine ⟨fun row p bytes s bad => ?malformed, fun row p bytes f e s spells entry side => ?side,
    fun s => ?window⟩
  case malformed =>
    obtain ⟨own, command⟩ := exec_frameCommand row p bytes s
    simp only [command, receive, bad, malformed]
    exact ⟨fun first => by rw [if_pos first], fun other => by rw [if_neg other]⟩
  case side =>
    obtain ⟨own, command⟩ := exec_frameCommand row p bytes s
    have differs : sideDiffers s p f = true := by simp [sideDiffers, entry, side]
    simp only [command, receive, spells, differs, ↓reduceIte]
    rfl
  case window => rfl

section
variable {p : Port} {bytes : List Byte} {f : Frame} {s t : State} (h : Arrives p bytes f s t)
include h

theorem receive_of_row {row : FrameRow} (hr : rowOf p f = row) (own : Port → Frame → State → State) :
    receive p bytes row own s = settle (own p f t) :=
  hr ▸ receive_of_arrives h own

theorem exec_sample (hk : f.kind = .sample) : exec (.sample p bytes) s = .next (settle (onSample p f t)) :=
  congrArg _ (receive_of_row h (by simp only [rowOf, hk]) onSample)

theorem exec_voice (hk : f.kind = .voice) : exec (.voice p bytes) s = .next (settle (onVoice p f t)) :=
  congrArg _ (receive_of_row h (by simp only [rowOf, hk]) onVoice)

theorem exec_report (hk : f.kind = .report) : exec (.report p bytes) s = .next (settle (onReport p f t)) :=
  congrArg _ (receive_of_row h (by simp only [rowOf, hk]) onReport)

theorem exec_manage (hk : f.kind = .manage) : exec (.manage p bytes) s = .next (settle (onManage p f t)) :=
  congrArg _ (receive_of_row h (by simp only [rowOf, hk]) onManage)

theorem exec_orderToBridge (hk : f.kind = .order) (hp : p = .d) (hd : f.dest ≠ 0) :
    exec (.orderToBridge p bytes) s = .next (settle (onOrderToBridge p f t)) :=
  congrArg _ (receive_of_row h (by simp only [rowOf, hk, hp, hd, ↓reduceIte]) onOrderToBridge)

end

/-! ## Carried or discarded (R6) -/

section
variable {p : Port} {f : Frame} {s : State}

theorem onSample_across (h : destination s p f = .across) :
    onSample p f s = forwardFrame p f (settle (takeSample f s)) := by simp only [onSample, h]

theorem onSample_not_across (h : destination s p f ≠ .across) :
    onSample p f s = settle (takeSample f s) := by
  unfold onSample
  cases hd : destination s p f with
  | across => exact absurd hd h
  | part | near => rfl

theorem onReport_across (h : destination s p f = .across) : onReport p f s = forwardFrame p f s := by
  simp only [onReport, h]

theorem onReport_not_across (h : destination s p f ≠ .across) : onReport p f s = s := by
  unfold onReport
  cases hd : destination s p f with
  | across => exact absurd hd h
  | part | near => rfl

theorem onOrderToBridge_eq_onReport : onOrderToBridge p f s = onReport p f s := rfl

theorem takeSample_new (entry : (getStation s f.src.toNat).entry ≠ none)
    (new : (getStation s f.src.toNat).lastSeq ≠ some f.sequence) :
    takeSample f s = applySample f (putStation f.src.toNat
      { getStation s f.src.toNat with lastSeq := some f.sequence } s) :=
  if_pos ⟨Option.isSome_iff_ne_none.2 entry, new⟩

theorem takeSample_old (h : (getStation s f.src.toNat).entry = none ∨
    (getStation s f.src.toNat).lastSeq = some f.sequence) : takeSample f s = s := by
  refine if_neg (fun ⟨entry, new⟩ => h.elim (fun none => ?_) new)
  simp [none] at entry

end

/-- Settles O7: the two cases of the application, each with the two of the disposal. -/
theorem sampleFrameIsAppliedOnce : Obligations.SampleFrameIsAppliedOnce := by
  unfold Obligations.SampleFrameIsAppliedOnce
  intro p bytes f s t u arrives hk applied
  have taken : u = settle (takeSample f t) := by
    obtain ⟨entry, new, rfl⟩ | ⟨old, rfl⟩ := applied
    · rw [takeSample_new entry new]
    · rw [takeSample_old old]
  rw [exec_sample arrives hk]
  exact ⟨fun across => by rw [onSample_across across, taken],
    fun other => by rw [onSample_not_across other, taken]⟩

/-- Settles O9: the rows of the table by port and destination. -/
theorem otherFramesAreConsumedOrCarried : Obligations.OtherFramesAreConsumedOrCarried := by
  unfold Obligations.OtherFramesAreConsumedOrCarried
  refine ⟨fun p bytes f s t arrives hk => ?voice, fun p bytes f s t arrives =>
    ⟨fun hk across => ?across, fun hk other => ?discarded, fun hk hp hd across => ?orderAcross,
      fun hk hp hd other => ?orderDiscarded⟩⟩
  case voice =>
    rw [exec_voice arrives hk]
    refine ⟨?_, ?_, ?_⟩
    · rintro rfl
      rfl
    · rintro rfl across
      simp only [onVoice, across]
    · rintro rfl other
      unfold onVoice
      cases hd : destination t .d f with
      | across => exact absurd hd other
      | part | near => rfl
  case across => rw [exec_report arrives hk, onReport_across across]
  case discarded => rw [exec_report arrives hk, onReport_not_across other]
  case orderAcross =>
    rw [exec_orderToBridge arrives hk hp hd, onOrderToBridge_eq_onReport, onReport_across across, hp]
    rfl
  case orderDiscarded =>
    rw [exec_orderToBridge arrives hk hp hd, onOrderToBridge_eq_onReport, onReport_not_across other]

/-! ## The D-port transmitter (R11) -/

section
variable {s : State} {f : Frame} {rest : List Frame} (free : s.link.dTx = none)
include free

theorem kickD_safety (h : s.link.safety = f :: rest) : kickD s =
    announceRoom { s with link := { s.link with safety := rest, dTx := some f } } := by
  simp [kickD, free, h]

theorem kickD_voice (h1 : s.link.safety = []) (h2 : s.link.voice = f :: rest) :
    kickD s = { s with link := { s.link with voice := rest, dTx := some f } } := by
  simp [kickD, free, h1, h2]

theorem kickD_forward (h1 : s.link.safety = []) (h2 : s.link.voice = [])
    (h3 : s.link.forward = f :: rest) :
    kickD s = { s with link := { s.link with forward := rest, dTx := some f } } := by
  simp [kickD, free, h1, h2, h3]

theorem kickD_idle (h1 : s.link.safety = []) (h2 : s.link.voice = []) (h3 : s.link.forward = []) :
    kickD s = s := by
  simp [kickD, free, h1, h2, h3]

end

/-- Settles O10: the four queues in their priority. -/
theorem dPortTakesNextFrame : Obligations.DPortTakesNextFrame := by
  unfold Obligations.DPortTakesNextFrame
  refine ⟨?busy, fun s idle => ?idle⟩
  case busy =>
    rintro s u g sending rfl free
    have finished : exec .dPortFrameSent s = .next (settle (kickD (orderSent g
        { s with link := { s.link with dTx := none } }))) := by
      simp only [exec, execDPortFrameSent, finishD, sending]
    rw [finished]
    refine ⟨fun f rest h => ?_, fun f rest h1 h2 => ?_, fun f rest h1 h2 h3 => ?_, fun h1 h2 h3 => ?_⟩
    · rw [kickD_safety free h]
    · rw [kickD_voice free h1 h2]
    · rw [kickD_forward free h1 h2 h3]
    · rw [kickD_idle free h1 h2 h3]
  case idle => simp only [exec, execDPortFrameSent, finishD, idle]

/-! ## The B-port transmitter (R15) and the report queue (R172) -/

section
variable {s : State} (free : s.link.bTx = none)
include free

theorem kickB_alarm {older newer : List Report} {r : Report} (h : s.reports = older ++ r :: newer)
    (ho : ∀ x ∈ older, x.alarm = false) (hr : r.alarm = true) :
    kickB s = sendReport r { s with reports := older ++ newer } := by
  simp [kickB, free, h, takeFirst_append older newer r ho hr]

variable (routine : ∀ x ∈ s.reports, x.alarm = false)
include routine

theorem kickB_no_alarm : kickB s = match s.link.turn with
    | .report => if s.reports.isEmpty then takeForwarded s else takeReport s
    | .forward => if s.link.dToB.isEmpty then takeReport s else takeForwarded s := by
  unfold kickB
  rw [takeFirst_eq_none routine, free]
  rfl

theorem kickB_report {r : Report} {rest : List Report} (h : s.reports = r :: rest)
    (turn : s.link.turn = .report ∨ s.link.dToB = []) :
    kickB s = sendReport r { s with reports := rest } := by
  have taken : takeReport s = sendReport r { s with reports := rest } := by simp only [takeReport, h]
  rw [kickB_no_alarm free routine, ← taken]
  cases ht : s.link.turn with
  | report => simp [h]
  | forward => simp [turn.resolve_left (by simp [ht])]

theorem kickB_forwarded {f : Frame} {rest : List Frame} (h : s.link.dToB = f :: rest)
    (turn : s.link.turn = .forward ∨ s.reports = []) :
    kickB s = sendForwarded f { s with link := { s.link with dToB := rest } } := by
  have taken : takeForwarded s = sendForwarded f { s with link := { s.link with dToB := rest } } := by
    simp only [takeForwarded, h]
  rw [kickB_no_alarm free routine, ← taken]
  cases ht : s.link.turn with
  | forward => simp [h]
  | report => simp [turn.resolve_left (by simp [ht])]

end

theorem kickB_idle {s : State} (free : s.link.bTx = none) (h1 : s.reports = []) (h2 : s.link.dToB = []) :
    kickB s = s := by
  rw [kickB_no_alarm free (by simp [h1])]
  cases s.link.turn <;> simp [h1, h2, takeReport, takeForwarded]

section
variable {s : State} {r : Report}

theorem admitReport_room (h : s.reports.length < 32) :
    admitReport r s = { s with reports := s.reports ++ [r] } :=
  if_pos h

theorem admitReport_routine_full (h : s.reports.length = 32) (hr : r.alarm = false) :
    admitReport r s = { s with overflow := true } := by
  simp [admitReport, h, Config.reportCap, hr]

theorem admitReport_displaces {alarms rest : List Report} {q : Report} (h : s.reports.length = 32)
    (hs : s.reports = alarms ++ q :: rest) (ha : ∀ x ∈ alarms, x.alarm = true) (hq : q.alarm = false)
    (hr : r.alarm = true) :
    admitReport r s = { s with reports := alarms ++ rest ++ [r], overflow := true } := by
  have first : takeFirst (fun x => !x.alarm) s.reports = some (q, alarms ++ rest) := by
    rw [hs]
    exact takeFirst_append alarms rest q (fun x hx => by simp [ha x hx]) (by simp [hq])
  simp [admitReport, h, Config.reportCap, hr, first]

theorem admitReport_alarms_full (h : s.reports.length = 32) (ha : ∀ x ∈ s.reports, x.alarm = true)
    (hr : r.alarm = true) : admitReport r s = { s with overflow := true } := by
  have noRoutine : takeFirst (fun x : Report => !x.alarm) s.reports = none :=
    takeFirst_eq_none (fun x hx => by simp [ha x hx])
  simp [admitReport, h, Config.reportCap, hr, noRoutine]

end

/-- Settles O11: the transmitter's choices and the queue's, each by its lemma. -/
theorem reportsJoinAndLeaveTheirQueue : Obligations.ReportsJoinAndLeaveTheirQueue := by
  unfold Obligations.ReportsJoinAndLeaveTheirQueue
  refine ⟨?sent, fun r s => ⟨admitReport_room, admitReport_routine_full,
    fun alarms q rest full hs ha hq hr => admitReport_displaces full hs ha hq hr,
    admitReport_alarms_full⟩⟩
  rintro s u g sending rfl
  have finished : exec .bPortFrameSent s =
      .next (settle (kickB { s with link := { s.link with bTx := none } })) := by
    simp only [exec, execBPortFrameSent, finishB, sending]
  rw [finished]
  have taken {t u : State} (h : t = u) : (Host.Outcome.next (settle t) : Answer) = .next (settle u) := by
    rw [h]
  generalize hv : { s with link := { s.link with bTx := none } } = v
  have free : v.link.bTx = none := hv ▸ rfl
  have reports : v.reports = s.reports := hv ▸ rfl
  have turns : v.link.turn = s.link.turn := hv ▸ rfl
  have forwarded : v.link.dToB = s.link.dToB := hv ▸ rfl
  rw [← reports, ← turns, ← forwarded]
  have frame (r : Report) : reportFrame s r = reportFrame v r := hv ▸ rfl
  simp only [frame]
  exact ⟨fun older r newer hs ho hr => taken (kickB_alarm free hs ho hr),
    fun r rest hs routine turn => taken (kickB_report free routine hs turn),
    fun f rest hf routine turn => taken (kickB_forwarded free routine hf turn),
    fun none nothing => taken (kickB_idle free none nothing)⟩

/-! ## Silence (R17, R18, R20, R29) -/

/-- The points of a list, each as it was but STALE. -/
theorem getPoint_stalePoints (due : List Nat) (s : State) (n : Nat) :
    getPoint (setImage (due.foldl (fun t k => putPoint t k { getPoint s k with quality := .stale })
      s.points) due s) n = if n ∈ due then { getPoint s n with quality := .stale } else getPoint s n := by
  rw [getPoint_setImage]
  split_ifs with hn
  · rw [getD_foldl_putPoint_last (fun k : Nat => k) (fun k => { getPoint s k with quality := .stale })]
    cases last : (due.filter (fun k => decide (k = n))).getLast? with
    | none =>
      rw [List.getLast?_eq_none_iff, List.filter_eq_nil_iff] at last
      exact absurd (decide_eq_true rfl) (last n hn)
    | some k =>
      have same := (List.mem_filter.1 (List.mem_of_getLast? last)).2
      rw [of_decide_eq_true same]
  · exact getD_foldl_putPoint (fun k : Nat => k) _ due s.points n (fun k hk e => hn (e ▸ hk))

theorem getPoint_staleStation (n k : Nat) (s : State) : getPoint (staleStation n s) k =
    if (getPoint s k).quality = .fresh ∧ ∃ m ∈ s.pointMap, m.2.station = n ∧ m.2.point = k
    then { getPoint s k with quality := .stale } else getPoint s k := by
  unfold staleStation
  rw [getPoint_stalePoints]
  refine ite_congr (propext ?_) (fun _ => rfl) (fun _ => rfl)
  simp only [List.mem_map, List.mem_filter, Bool.and_eq_true, decide_eq_true_eq]
  constructor
  · rintro ⟨m, ⟨hm, station, fresh⟩, rfl⟩
    exact ⟨fresh, m, hm, station, rfl⟩
  · rintro ⟨fresh, m, hm, station, rfl⟩
    exact ⟨m, ⟨hm, station, fresh⟩, rfl⟩

/-- Settles O13: the two declarations, and the points a silent station leaves STALE. -/
theorem silenceIsDeclared : Obligations.SilenceIsDeclared := by
  unfold Obligations.SilenceIsDeclared
  refine ⟨fun s heard due => ?bridge, ?station⟩
  case bridge =>
    simp only [exec, execBridgeSilence, heard, due, and_self, ↓reduceIte]
    rfl
  case station =>
    rintro n e s u entry online limit rfl
    refine ⟨?_, fun k => getPoint_staleStation n k _⟩
    simp only [exec, execStationSilence, silenceStation, entry, online, limit, and_self, ↓reduceIte]
    rfl

end Sys2Proof.Machine

/-! # Proofs: terms, profiles, numbers, gates and samples (R48, R75 to R78, R134, R150, R152, R157) -/

namespace Sys2Proof.Machine

open Sys2Proof

/-! ## Terms (R48) -/

section
variable {s : State} {t : Term} {n : Nat} (read : t.point = some n)
include read

theorem evalTerm_of_never (h : (getPoint s n).quality = .never) : evalTerm s t = false := by
  simp only [evalTerm, read, h]

theorem evalTerm_of_stale (h : (getPoint s n).quality = .stale) : evalTerm s t = match t.stale with
    | .asFalse => false
    | .asTrue => true
    | .useValue => t.compare (getPoint s n).value := by
  simp only [evalTerm, read, h] <;> rfl

/-- A point that can be read is compared. -/
theorem evalTerm_of_usable (h : (getPoint s n).quality = .fresh ∨ (getPoint s n).quality = .forced ∨
    ((getPoint s n).quality = .stale ∧ t.stale = .useValue)) :
    evalTerm s t = t.compare (getPoint s n).value := by
  obtain fresh | forced | ⟨stale, policy⟩ := h
  · simp only [evalTerm, read, fresh]
  · simp only [evalTerm, read, forced]
  · rw [evalTerm_of_stale read stale, policy]

end

/-- Settles O18: by the quality of the point, then by the condition on the masked values. -/
theorem termFollowsQualityAndPolicy : Obligations.TermFollowsQualityAndPolicy := by
  unfold Obligations.TermFollowsQualityAndPolicy
  intro s t
  refine ⟨evalTerm_of_none s, fun n read h => evalTerm_of_never read h, fun n read h policy => ?_,
    fun n read h policy => ?_, fun n read h => ?_⟩
  · rw [evalTerm_of_stale read h, policy]
  · rw [evalTerm_of_stale read h, policy]
  · rw [evalTerm_of_usable read h, Term.compare]
    cases t.cond with
    | eq | ne => simp only [Cond.holdsNat, BitVec.toNat_inj, ne_eq]
    | _ => rfl

/-! ## Change events without receivers (R24) -/

theorem takeEvent_of_noReceivers (names : List Nat) {s : State} (h : NoReceivers s) :
    takeEvent names s = s := by
  have held : heldOnEvent names s = s := by
    have marked : markHeld (fun r => r.reads.any (fun n => decide (n ∈ names))) s = s := by
      simp only [markHeld, h.hold, List.map_nil]
      rw [← h.hold]
    rw [heldOnEvent, marked, reevaluateHeld, h.hold]
    rfl
  have zones : zonesOnEvent names s = s := by simp only [zonesOnEvent, h.zones, List.foldl_nil]
  have doors : doorsOnEvent names s = s := by simp only [doorsOnEvent, h.doors, List.foldl_nil]
  rw [takeEvent, held, zones, doors]

theorem settleWith_of_noReceivers (fuel : Nat) {s : State} (h : NoReceivers s)
    (enough : s.events.length ≤ fuel) : settleWith fuel s = { s with events := [] } := by
  induction fuel generalizing s with
  | zero =>
    have none : s.events = [] := List.length_eq_zero_iff.1 (Nat.le_zero.1 enough)
    rw [settleWith, ← none]
  | succ fuel ih =>
    rw [settleWith]
    split
    next none => rw [← none]
    next e rest some =>
      have smaller : NoReceivers { s with events := rest } := ⟨h.hold, h.zones, h.doors⟩
      rw [takeEvent_of_noReceivers e smaller, ih smaller]
      simp only [some, List.length_cons] at enough ⊢
      omega

/-- Settles O25: each event is taken by nobody. -/
theorem eventsWithoutReceiversChangeNothing : Obligations.EventsWithoutReceiversChangeNothing := by
  unfold Obligations.EventsWithoutReceiversChangeNothing
  exact fun s h enough => settleWith_of_noReceivers Config.eventFuel h enough

/-! ## The profile (R75, R78) -/

/-- The quotient rounded up, as its name says. -/
theorem ceilDiv_eq_ceil (n d : Nat) : (ceilDiv n d : Int) = ⌈(n : ℚ) / (d : ℚ)⌉ := by
  rcases Nat.eq_zero_or_pos d with rfl | hd
  · simp [ceilDiv]
  · have hq : (0 : ℚ) < d := by exact_mod_cast hd
    rw [eq_comm, Int.ceil_eq_iff]
    have quotient := Nat.div_add_mod (n + d - 1) d
    have remainder := Nat.mod_lt (n + d - 1) hd
    have upper : n ≤ d * ceilDiv n d := by unfold ceilDiv; omega
    have lower : d * ceilDiv n d < n + d := by unfold ceilDiv; omega
    constructor
    · rw [lt_div_iff₀ hq]
      have : (d : ℚ) * (ceilDiv n d : ℚ) < n + d := by exact_mod_cast lower
      push_cast
      linarith
    · rw [div_le_iff₀ hq]
      have : (n : ℚ) ≤ d * (ceilDiv n d : ℚ) := by exact_mod_cast upper
      push_cast
      linarith

theorem speed_term (v k : Nat) : (max (((v : ℚ) ^ 2) - (k : ℚ) ^ 2) 0) = ((v * v - k * k : Nat) : ℚ) := by
  rcases Nat.le_total (k * k) (v * v) with h | h
  · have hq : (k : ℚ) ^ 2 ≤ (v : ℚ) ^ 2 := by
      rw [pow_two, pow_two]
      exact_mod_cast h
    rw [max_eq_left (by linarith), Nat.cast_sub h]
    push_cast
    ring
  · have hq : (v : ℚ) ^ 2 ≤ (k : ℚ) ^ 2 := by
      rw [pow_two, pow_two]
      exact_mod_cast h
    rw [max_eq_right (by linarith), Nat.sub_eq_zero_of_le h]
    simp

theorem brakingDistance_eq (c : Current) (v : Nat) : brakingDistance c v =
    ⌈(max (((v : ℚ) ^ 2) - (c.vk : ℚ) ^ 2) 0) / (2 * (c.dec : ℚ))⌉ + (c.move.lk : Int) +
      c.move.offset + ⌈(v : ℚ) / 1000⌉ := by
  rw [brakingDistance, ceilDiv_eq_ceil, ceilDiv_eq_ceil, speed_term]
  push_cast
  rfl

theorem remaining_eq (c : Current) :
    (c.remaining : Int) = (c.dist : Int) - ((min (c.pacc / 1000) c.dist : Nat) : Int) := by
  unfold Current.remaining
  omega

theorem velocityStep_bounds (c : Current) (p : Phase) (h1 : 1000 ≤ c.vacc) (h2 : c.vacc ≤ c.vc * 1000)
    (h3 : 1 ≤ c.vk) (h4 : c.vk ≤ c.vc) :
    1000 ≤ (velocityStep c p).1 ∧ (velocityStep c p).1 ≤ c.vc * 1000 := by
  cases p with
  | accel | decel =>
    unfold velocityStep
    split_ifs <;> dsimp only <;> omega
  | _ => exact ⟨h1, h2⟩

/-- Settles O29: the velocity step by its branches, the phase decision by the rational braking distance. -/
theorem profileFollowsItsPhases : Obligations.ProfileFollowsItsPhases := by
  unfold Obligations.ProfileFollowsItsPhases
  refine ⟨fun c => ⟨fun h => if_pos h, fun h => if_neg (by omega), fun h => if_pos (by omega),
    fun h => if_neg (by omega), rfl, rfl, fun p => velocityStep_bounds c p⟩, ?decision⟩
  rintro c p v bd rfl rfl
  rw [← brakingDistance_eq, ← remaining_eq]
  unfold phaseDecision
  refine ⟨fun far => if_pos far, fun near fast => ?_, fun near slow => ?_⟩
  · rw [if_neg (by omega), if_pos fast]
  · rw [if_neg (by omega), if_neg (by omega)]

/-! ## Call numbers (R150) -/

/-- The number tried `k` tries after the last one given. -/
def tried (last k : Nat) : Nat := (last + k) % 255 + 1

theorem tried_succ (last k : Nat) : tried (last % 255 + 1) k = tried last (k + 1) := by
  unfold tried
  omega

/-- Of the tries, the first free number is taken. -/
theorem freeNumber_first (cs : List Call) (tries last : Nat)
    (free : ∃ k < tries, ∀ c ∈ cs, c.number ≠ tried last k) :
    ∃ k < tries, freeNumber cs tries last = tried last k ∧ (∀ c ∈ cs, c.number ≠ tried last k) ∧
      ∀ j < k, ∃ c ∈ cs, c.number = tried last j := by
  induction tries generalizing last with
  | zero => obtain ⟨k, hk, -⟩ := free; omega
  | succ tries ih =>
    rw [freeNumber]
    split_ifs with taken
    · obtain ⟨k, hk, hfree⟩ := free
      simp only [List.any_eq_true, decide_eq_true_eq] at taken
      cases k with
      | zero => exact absurd taken (fun ⟨c, hc, e⟩ => hfree c hc e)
      | succ k =>
        obtain ⟨j, hj, value, unused, before⟩ := ih (last % 255 + 1)
          ⟨k, by omega, by simpa only [tried_succ] using hfree⟩
        simp only [tried_succ] at value unused before
        refine ⟨j + 1, by omega, value, unused, fun i hi => ?_⟩
        cases i with
        | zero => exact taken
        | succ i => exact before i (by omega)
    · simp only [List.any_eq_true, decide_eq_true_eq, not_exists, not_and] at taken
      exact ⟨0, by omega, rfl, taken, fun j hj => absurd hj (Nat.not_lt_zero j)⟩

/-- Of 17 numbers one is free where at most 16 calls stand. -/
theorem exists_free (cs : List Call) (last : Nat) (few : cs.length ≤ 16) :
    ∃ k < 17, ∀ c ∈ cs, c.number ≠ tried last k := by
  by_contra! all
  have covered : (Finset.range 17).image (tried last) ⊆ (cs.map (·.number)).toFinset := by
    intro n hn
    obtain ⟨k, hk, rfl⟩ := Finset.mem_image.1 hn
    obtain ⟨c, hc, number⟩ := all k (Finset.mem_range.1 hk)
    exact List.mem_toFinset.2 (List.mem_map.2 ⟨c, hc, number⟩)
  have distinct : Set.InjOn (tried last) (Finset.range 17) := by
    intro i hi j hj same
    simp only [Finset.coe_range, Set.mem_Iio] at hi hj
    unfold tried at same
    omega
  have card := (Finset.card_le_card covered).trans (List.toFinset_card_le _)
  rw [Finset.card_image_of_injOn distinct, Finset.card_range, List.length_map] at card
  omega

/-- Settles O45: one of 17 numbers is free, and the search takes the first of them. -/
theorem callNumberIsTheNextFreeOne : Obligations.CallNumberIsTheNextFreeOne := by
  unfold Obligations.CallNumberIsTheNextFreeOne
  rintro cs last n few - rfl
  obtain ⟨k, hk, value, unused, before⟩ := freeNumber_first cs 17 last (exists_free cs last few)
  rw [value]
  refine ⟨?_, ?_, unused, k, rfl, hk, before⟩
  all_goals
    unfold tried
    omega

/-! ## Ownership (R152) -/

theorem getLsbD_requestedUnion (cs : List Call) (n : Nat) :
    (requestedUnion cs).getLsbD n = true ↔ ∃ d ∈ cs, d.requested.getLsbD n = true := by
  suffices general : ∀ acc : ZoneSet, (cs.foldl (fun acc c => acc ||| c.requested) acc).getLsbD n = true ↔
      acc.getLsbD n = true ∨ ∃ d ∈ cs, d.requested.getLsbD n = true by
    simpa [requestedUnion] using general 0
  induction cs with
  | nil => simp
  | cons c cs ih =>
    intro acc
    simp only [List.foldl_cons, ih, BitVec.getLsbD_or, Bool.or_eq_true, List.exists_mem_cons_iff, or_assoc]

theorem getElem?_assignOwners (bs cs : List Call) (i : Nat) :
    (assignOwners bs cs)[i]? =
      cs[i]?.map (fun c => { c with owned := ownedBy (bs ++ cs.take i) c (cs.drop (i + 1)) }) := by
  induction cs generalizing bs i with
  | nil => rfl
  | cons c cs ih =>
    cases i with
    | zero => simp [assignOwners]
    | succ i => simp [assignOwners, ih]

theorem getLsbD_ownedBy (before behind : List Call) (c : Call) {n : Nat} (hn : n < 24) :
    (ownedBy before c behind).getLsbD n = true ↔ c.requested.getLsbD n = true ∧
      (∀ d ∈ before, d.requested.getLsbD n = true → c.priority < d.priority) ∧
      (∀ d ∈ behind, d.requested.getLsbD n = true → c.priority ≤ d.priority) := by
  simp only [ownedBy, BitVec.getLsbD_and, BitVec.getLsbD_not, hn, decide_true, Bool.true_and,
    BitVec.getLsbD_or, Bool.and_eq_true, Bool.not_eq_true', Bool.or_eq_false_iff]
  simp only [Bool.eq_false_iff, ne_eq, getLsbD_requestedUnion, List.mem_filter, decide_eq_true_eq,
    not_exists, not_and, and_imp]
  refine and_congr_right' (and_congr ?_ ?_)
  · exact forall₂_congr (fun d _ => ⟨fun h bit => not_le.1 (fun le => h le bit),
      fun h le bit => absurd (h bit) le.not_gt⟩)
  · exact forall₂_congr (fun d _ => ⟨fun h bit => not_lt.1 (fun lt => h lt bit),
      fun h lt bit => absurd (h bit) lt.not_ge⟩)

/-- Settles O46: the owned set a recompute leaves is R152's, bit by bit. -/
theorem bestCallOwnsEachAudioZone : Obligations.BestCallOwnsEachAudioZone := by
  unfold Obligations.BestCallOwnsEachAudioZone
  intro s i c n standing hn
  generalize hl : (recompute s).calls = l at standing ⊢
  have owned : assignOwners [] l = l := hl ▸ owned_recompute s
  have own : c.owned = ownedBy (l.take i) c (l.drop (i + 1)) := by
    have at_i := getElem?_assignOwners [] l i
    rw [owned, standing] at at_i
    simpa using congrArg Call.owned (Option.some.inj at_i)
  rw [own, getLsbD_ownedBy _ _ _ hn]
  refine and_congr_right' ⟨fun ⟨before, behind⟩ j d hd other bit => ?_, fun best => ⟨?_, ?_⟩⟩
  · rcases Nat.lt_or_ge j i with lt | ge
    · refine Or.inl (before d ?_ bit)
      exact List.mem_of_getElem? ((List.getElem?_take_of_lt lt).trans hd)
    · have le := behind d (List.mem_of_getElem? (i := j - (i + 1)) (by
        rw [List.getElem?_drop, ← hd]
        congr 1
        omega)) bit
      exact (Nat.lt_or_eq_of_le le).imp_right (fun e => ⟨e, by omega⟩)
  · intro d hd bit
    obtain ⟨j, hj⟩ := List.getElem?_of_mem hd
    have lt : j < i := by
      by_contra ge
      rw [List.getElem?_take_eq_none (by omega)] at hj
      cases hj
    rw [List.getElem?_take_of_lt lt] at hj
    exact (best j d hj (by omega) bit).resolve_right (fun h => by omega)
  · intro d hd bit
    obtain ⟨j, hj⟩ := List.getElem?_of_mem hd
    rw [List.getElem?_drop] at hj
    obtain lt | ⟨eq, -⟩ := best _ d hj (by omega) bit
    · exact lt.le
    · exact eq.le

/-! ## Output samples (R157) -/

theorem outSample_nonneg {x : Int} (h : 0 ≤ x) (g1 g2 : Nat) :
    outSample x g1 g2 = x * g1 * g2 / 4096 :=
  Int.tdiv_eq_ediv_of_nonneg (by positivity)

theorem outSample_neg (x : Int) (g1 g2 : Nat) : outSample (-x) g1 g2 = -outSample x g1 g2 := by
  rw [outSample, outSample, ← Int.neg_tdiv]
  congr 1
  ring

theorem outSample_within {x : Int} (h : 0 ≤ x) {g1 g2 : Nat} (h1 : g1 ≤ 64) (h2 : g2 ≤ 64) :
    0 ≤ outSample x g1 g2 ∧ outSample x g1 g2 ≤ x := by
  rw [outSample_nonneg h]
  have gains : (g1 : Int) * g2 ≤ 64 * 64 := by exact_mod_cast Nat.mul_le_mul h1 h2
  have bound : x * g1 * g2 ≤ x * 4096 := by
    rw [mul_assoc]
    exact mul_le_mul_of_nonneg_left (by linarith) h
  have positive : 0 ≤ x * g1 * g2 := by positivity
  omega

theorem foldl_min_spec (f : Nat → Nat) (on : Nat → Bool) (l : List Nat) (g : Nat) :
    let m := l.foldl (fun g n => if on n then min g (f n) else g) g
    m ≤ g ∧ (∀ n ∈ l, on n = true → m ≤ f n) ∧ (m = g ∨ ∃ n ∈ l, on n = true ∧ m = f n) := by
  induction l generalizing g with
  | nil => simp
  | cons k l ih =>
    obtain ⟨least, all, one⟩ := ih (if on k then min g (f k) else g)
    dsimp only at least all one ⊢
    rw [List.foldl_cons]
    generalize l.foldl _ _ = m at *
    by_cases hk : on k = true
    · simp only [hk, ↓reduceIte] at least one
      refine ⟨by omega, ?_, ?_⟩
      · intro n hn on_n
        obtain rfl | hn := List.mem_cons.1 hn
        · omega
        · exact all n hn on_n
      · obtain here | ⟨n, hn, later⟩ := one
        · rcases Nat.le_total g (f k) with le | le
          · exact Or.inl (by omega)
          · exact Or.inr ⟨k, List.mem_cons_self, hk, by omega⟩
        · exact Or.inr ⟨n, List.mem_cons_of_mem _ hn, later⟩
    · simp only [hk] at least one
      refine ⟨least, ?_, ?_⟩
      · intro n hn on_n
        obtain rfl | hn := List.mem_cons.1 hn
        · exact absurd on_n hk
        · exact all n hn on_n
      · exact one.imp_right (fun ⟨n, hn, later⟩ => ⟨n, List.mem_cons_of_mem _ hn, later⟩)

/-- Settles O49: the truncation by sign, and the smallest gain of the owned zones. -/
theorem outputSampleIsScaledTowardZero : Obligations.OutputSampleIsScaledTowardZero := by
  unfold Obligations.OutputSampleIsScaledTowardZero
  refine ⟨fun x g1 g2 => ⟨fun h => outSample_nonneg h g1 g2, fun h => ?negative, ?unity, ?within⟩,
    fun s c => ⟨fun h => if_pos h, ?gains⟩⟩
  case negative =>
    rw [← outSample_nonneg (by omega), outSample_neg, neg_neg]
  case unity =>
    rw [outSample, show x * ((64 : Nat) : Int) * ((64 : Nat) : Int) = x * 4096 by push_cast; ring]
    exact Int.mul_tdiv_cancel x (by decide)
  case within =>
    intro h1 h2
    rcases Int.le_total 0 x with h | h
    · have := outSample_within h h1 h2
      omega
    · have bounds := outSample_within (x := -x) (by omega) h1 h2
      rw [outSample_neg] at bounds
      omega
  case gains =>
    intro tpl low valid
    have gains : callGains s c = (tpl.gain, quietest s c.owned) := by
      rw [callGains, if_neg (by omega), valid]
    obtain ⟨-, all, one⟩ := foldl_min_spec (zoneGain s) (fun n => c.owned.getLsbD n) (List.range 24) 64
    rw [gains]
    refine ⟨rfl, fun n hn bit => all n (List.mem_range.2 hn) bit, one.imp_right ?_⟩
    rintro ⟨n, hn, bit, value⟩
    exact ⟨n, List.mem_range.1 hn, bit, value⟩

end Sys2Proof.Machine

/-! # Proofs: re-evaluation and release of held orders (R55, R56) -/

namespace Sys2Proof.Machine

open Sys2Proof

/-! ## Splitting at the first element that meets a test -/

section
variable {α : Type} {p : α → Bool}

theorem splitFirst_append {before after : List α} {x : α} (hb : ∀ y ∈ before, p y = false)
    (hx : p x = true) : splitFirst p (before ++ x :: after) = some (before, x, after) := by
  induction before with
  | nil => simp [splitFirst, hx]
  | cons y before ih =>
    have hy := hb y List.mem_cons_self
    simp [splitFirst, hy, ih (fun z hz => hb z (List.mem_cons_of_mem _ hz))]

theorem splitFirst_eq_none {l : List α} (h : ∀ y ∈ l, p y = false) : splitFirst p l = none := by
  induction l with
  | nil => rfl
  | cons y l ih =>
    simp [splitFirst, h y List.mem_cons_self, ih (fun z hz => h z (List.mem_cons_of_mem _ hz))]

end

/-! ## The walk over the due entries (R55) -/

/-- An entry after a re-evaluation it does not pass. -/
def HoldEntry.seen (s : State) (g : HoldEntry) : HoldEntry :=
  if g.marked then
    { g with marked := false, eval := match Tab.get? s.rules g.rule with
      | some q => (evalRule s q).1
      | none => g.eval }
  else g

/-- A due entry whose rule, where it still stands, selects 0. -/
def HoldEntry.stays (s : State) (g : HoldEntry) : Prop :=
  g.marked = true → ∀ q, Tab.get? s.rules g.rule = some q → (evalRule s q).2 = false

theorem HoldEntry.seen_unmarked (s : State) (g : HoldEntry) : (g.seen s).marked = false := by
  unfold seen
  split_ifs with marked
  · rfl
  · simpa using marked

theorem HoldEntry.seen_of_unmarked {s : State} {g : HoldEntry} (h : g.marked = false) : g.seen s = g := by
  simp [seen, h]

/-- The queue alone is changed by the re-evaluation of an entry that stays. -/
theorem reevaluate_of_stays {s : State} {before after : List HoldEntry} {g : HoldEntry}
    (marked : g.marked = true) (h : g.stays s) :
    reevaluate before g after s = { s with hold := before ++ g.seen s :: after } := by
  unfold reevaluate HoldEntry.seen
  cases hr : Tab.get? s.rules g.rule with
  | none => simp [marked]
  | some r => simp [marked, h marked r hr]

/-- The due entries of a stretch that all stay are re-evaluated one by one. -/
theorem reevaluateWith_of_stay (n : Nat) (todo : List HoldEntry) (done after : List HoldEntry) (s : State)
    (hs : s.hold = done ++ todo ++ after) (hd : ∀ g ∈ done, g.marked = false)
    (ht : ∀ g ∈ todo, g.stays s) :
    reevaluateWith ((todo.filter (fun g => g.marked)).length + n) s =
      reevaluateWith n { s with hold := done ++ todo.map (HoldEntry.seen s) ++ after } := by
  induction todo generalizing done s with
  | nil =>
    simp only [List.filter_nil, List.length_nil, Nat.zero_add, List.map_nil, ← hs]
  | cons g todo ih =>
    have rest (x : HoldEntry) (hx : x ∈ todo) := ht x (List.mem_cons_of_mem _ hx)
    cases marked : g.marked with
    | false =>
      have moved := ih (done ++ [g]) s (by simp [hs])
        (fun x hx => (List.mem_append.1 hx).elim (hd x) (fun e => by
          rw [List.mem_singleton.1 e, marked])) rest
      simpa [List.filter_cons, marked, HoldEntry.seen_of_unmarked marked] using moved
    | true =>
      have split : splitFirst (·.marked) s.hold = some (done, g, todo ++ after) := by
        rw [hs, List.append_assoc]
        exact splitFirst_append hd marked
      have count : ((g :: todo).filter (fun g => g.marked)).length + n =
          ((todo.filter (fun g => g.marked)).length + n) + 1 := by
        simp only [List.filter_cons, marked, ↓reduceIte, List.length_cons]
        omega
      have stepped : reevaluateWith (((todo.filter (fun g => g.marked)).length + n) + 1) s =
          reevaluateWith ((todo.filter (fun g => g.marked)).length + n)
            { s with hold := done ++ g.seen s :: (todo ++ after) } := by
        rw [reevaluateWith, split]
        exact congrArg _ (reevaluate_of_stays marked (ht g List.mem_cons_self))
      have next := ih (done ++ [g.seen s]) { s with hold := done ++ g.seen s :: (todo ++ after) }
        (by simp)
        (fun x hx => (List.mem_append.1 hx).elim (hd x) (fun e => by
          rw [List.mem_singleton.1 e, HoldEntry.seen_unmarked])) rest
      rw [count, stepped, next]
      simp only [List.map_cons, List.append_assoc, List.cons_append]
      rfl

theorem reevaluateWith_of_unmarked (n : Nat) {s : State} (h : ∀ g ∈ s.hold, g.marked = false) :
    reevaluateWith n s = s := by
  cases n with
  | zero => rfl
  | succ n => rw [reevaluateWith, splitFirst_eq_none h]

/-- The first due entry that passes leaves the queue and is released. -/
theorem reevaluateWith_of_passes (n : Nat) {s : State} {before after : List HoldEntry} {h : HoldEntry}
    {r : Rule} (hs : s.hold = before ++ h :: after) (hb : ∀ g ∈ before, g.marked = false)
    (marked : h.marked = true) (rule : Tab.get? s.rules h.rule = some r) (pass : (evalRule s r).2 = true) :
    reevaluateWith (n + 1) s = reevaluateWith n (releaseEntry
      { h with marked := false, eval := (evalRule s r).1 } { s with hold := before ++ after }) := by
  have split : splitFirst (·.marked) s.hold = some (before, h, after) := by
    rw [hs]
    exact splitFirst_append hb marked
  rw [reevaluateWith, split]
  simp only [reevaluate, rule, pass, ↓reduceIte]

/-- Marking adds and drops no entry, so every held order is re-evaluated at most once. -/
theorem reevaluateHeld_markHeld (due : Rule → Bool) (s : State) :
    reevaluateHeld (markHeld due s) = reevaluateWith s.hold.length (markHeld due s) := by
  have length : (markHeld due s).hold.length = s.hold.length := List.length_map ..
  rw [reevaluateHeld, length]

/-- Settles O22: the marking, the stretch before the first entry that passes, and its release. -/
theorem firstHeldOrderThatPassesIsReleased : Obligations.FirstHeldOrderThatPassesIsReleased := by
  unfold Obligations.FirstHeldOrderThatPassesIsReleased
  refine ⟨fun names s => ?marked, ?release, fun s n enough stay => ?none⟩
  case marked =>
    exact reevaluateHeld_markHeld _ s
  case release =>
    intro s before after h r n seen hs marked rule pass stay hseen
    obtain rfl : seen = HoldEntry.seen s := funext hseen
    have stays (g : HoldEntry) (hg : g ∈ before) : g.stays s := by
      intro due q hq
      obtain ⟨q', hq', false⟩ := stay g hg due
      rwa [Option.some.inj (hq.symm.trans hq')]
    rw [Nat.add_assoc, Nat.add_comm 1 n, reevaluateWith_of_stay (n + 1) before [] (h :: after) s
      (by simp [hs]) (fun _ h => absurd h List.not_mem_nil) stays]
    simp only [List.nil_append]
    refine reevaluateWith_of_passes n rfl (fun g hg => ?_) marked rule pass
    obtain ⟨x, -, rfl⟩ := List.mem_map.1 hg
    exact HoldEntry.seen_unmarked s x
  case none =>
    have counted := (s.hold.filter_sublist (p := fun g => g.marked)).length_le
    obtain ⟨m, hm⟩ := Nat.exists_eq_add_of_le (counted.trans enough)
    rw [hm, reevaluateWith_of_stay m s.hold [] [] s (by simp)
      (fun _ h => absurd h List.not_mem_nil) stay]
    simp only [List.nil_append, List.append_nil]
    refine reevaluateWith_of_unmarked m (fun g hg => ?_)
    obtain ⟨x, -, rfl⟩ := List.mem_map.1 hg
    exact HoldEntry.seen_unmarked s x

/-! ## The release (R56) -/

section
variable {h : HoldEntry} {s t : State}

theorem releaseEntry_of_gated (gated : gateBars s h.frame = true) :
    releaseEntry h s = refuse .gated h.frame h.origin (some h.rule) (some h.eval) s :=
  if_pos gated

theorem releaseEntry_of_passed (gate : gateBars s h.frame = false) (pass : passOrder h.frame s = (t, none)) :
    releaseEntry h s = reportVerdict .released h.frame h.origin (some h.rule) (some h.eval) t := by
  simp [releaseEntry, gate, pass]

theorem releaseEntry_of_refused {why : RefuseReason} (gate : gateBars s h.frame = false)
    (refused : passOrder h.frame s = (t, some why)) :
    releaseEntry h s = refuse why h.frame h.origin (some h.rule) (some h.eval) t := by
  simp [releaseEntry, gate, refused]

end

section
variable {f : Frame} {s t : State}

theorem passOrder_of_room (hd : f.dest ≠ 0) (room : s.link.forward.length < Config.forwardCap) :
    passOrder f s = (kickD { s with link := { s.link with forward := s.link.forward ++ [f] } }, none) := by
  rw [passOrder, if_neg hd, offerOrder_of_room f room]

theorem passOrder_of_taken (hd : f.dest = 0) (taken : deliver f s = (t, none)) :
    passOrder f s = (t, none) := by
  rw [passOrder, if_pos hd, taken]

theorem passOrder_of_refused {x : SubReason} (hd : f.dest = 0) (refused : deliver f s = (t, some x)) :
    passOrder f s = (t, some (.target x)) := by
  rw [passOrder, if_pos hd, refused]

end

/-- HOLD_RELEASE where the oldest entry passes: it is released and re-evaluation goes on. -/
theorem exec_holdRelease_of_passes {s t : State} {h : HoldEntry} {after : List HoldEntry} {r : Rule}
    {e : Evaluation} (hs : s.hold = h :: after) (rule : Tab.get? s.rules h.rule = some r)
    (reads : r.reads ≠ []) (pass : evalRule s r = (e, true))
    (ht : t = { s with hold := after.map (fun g => match Tab.get? s.rules g.rule with
      | some q => { g with marked := g.marked || !q.reads.isEmpty }
      | none => g) }) :
    exec .holdRelease s = .next (settle (reevaluateWith after.length
      (releaseEntry { h with marked := false, eval := e } t))) := by
  have due : r.reads.isEmpty = false := by simpa using reads
  have marked : (markHeld (fun q => !q.reads.isEmpty) s).hold =
      [] ++ { h with marked := true } :: t.hold := by
    simp [markHeld, hs, ht, rule, due] <;> exact fun _ _ => rfl
  have released := reevaluateWith_of_passes after.length marked
    (fun _ h => absurd h List.not_mem_nil) rfl (r := r) rule (congrArg Prod.snd pass)
  have count : (markHeld (fun q => !q.reads.isEmpty) s).hold.length = after.length + 1 := by
    simp [markHeld, hs]
  have latest : (evalRule (markHeld (fun q => !q.reads.isEmpty) s) r).1 = e := congrArg Prod.fst pass
  refine congrArg (fun u => Host.Outcome.next (settle u)) ?_
  rw [releaseHeld, reevaluateHeld, count, released, latest]
  subst ht
  rfl

/-- Settles O23: every entry whose rule reads a point is due, and the oldest is released by its frame. -/
theorem passedHeldOrderIsReleased : Obligations.PassedHeldOrderIsReleased := by
  unfold Obligations.PassedHeldOrderIsReleased
  refine ⟨fun s => ?due, fun s t h after r e hs rule reads pass ht => ?release⟩
  case due =>
    exact congrArg (fun u => Host.Outcome.next (settle u)) (reevaluateHeld_markHeld _ s)
  case release =>
    rw [exec_holdRelease_of_passes hs rule reads pass ht]
    obtain ⟨g, hg⟩ : ∃ g : HoldEntry, g = { h with marked := false, eval := e } := ⟨_, rfl⟩
    have frame : g.frame = h.frame := hg ▸ rfl
    have origin : g.origin = h.origin := hg ▸ rfl
    have rules : g.rule = h.rule := hg ▸ rfl
    have eval : g.eval = e := hg ▸ rfl
    rw [← hg, ← frame, ← origin, ← rules, ← eval]
    refine ⟨fun gated => ?_, fun gate hd room => ?_, fun gate hd full => ?_, fun u gate hd taken => ?_,
      fun u x gate hd refused => ?_⟩
    · rw [releaseEntry_of_gated gated]
    · rw [releaseEntry_of_passed gate (passOrder_of_room hd room)]
    · rw [releaseEntry_of_refused gate (passOrder_of_full hd full)]
    · rw [releaseEntry_of_passed gate (passOrder_of_taken hd taken)]
    · rw [releaseEntry_of_refused gate (passOrder_of_refused hd refused)]

end Sys2Proof.Machine

/-! # Proofs: owners' points, ticks, the coupler and gates (R22, R28, R32 to R34, R76, R103, R105, R134) -/

namespace Sys2Proof.Machine

open Sys2Proof

/-! ## An owner's write (R32) -/

/-- R32: a write that is made: the point is NEVER or its value differs. -/
def WriteDue (s : State) (w : Nat × Nat) : Prop :=
  (getPoint s w.1).quality = .never ∨ (getPoint s w.1).value ≠ BitVec.ofNat 16 w.2

section
variable {ws : List (Nat × Nat)} {s : State}

theorem writePoints_eq (ws : List (Nat × Nat)) (s : State) : ∃ due : List (Nat × Nat),
    (∀ w, w ∈ due ↔ w ∈ ws ∧ WriteDue s w) ∧
    writePoints ws s = setImage (due.foldl (fun t w => putPoint t w.1 ⟨BitVec.ofNat 16 w.2, .fresh, 0⟩)
      s.points) (due.map (·.1)) s := by
  refine ⟨_, fun w => ?_, rfl⟩
  simp only [List.mem_filter, Bool.or_eq_true, decide_eq_true_eq, WriteDue]

/-- A point no due write names is left. -/
theorem getPoint_writePoints_other {n : Nat} (h : ∀ w ∈ ws, w.1 = n → ¬WriteDue s w) :
    getPoint (writePoints ws s) n = getPoint s n := by
  obtain ⟨due, hdue, image⟩ := writePoints_eq ws s
  rw [image, getPoint_setImage]
  exact getD_foldl_putPoint (fun w : Nat × Nat => w.1) _ due s.points n (fun w hw e =>
    h w ((hdue w).1 hw).1 e ((hdue w).1 hw).2)

/-- A point a due write names, and no other write, is FRESH with age 0. -/
theorem getPoint_writePoints_due {w : Nat × Nat} (hw : w ∈ ws) (one : ∀ v ∈ ws, v.1 = w.1 → v = w)
    (h : WriteDue s w) :
    getPoint (writePoints ws s) w.1 = ⟨BitVec.ofNat 16 w.2, .fresh, 0⟩ := by
  obtain ⟨due, hdue, image⟩ := writePoints_eq ws s
  rw [image, getPoint_setImage, getD_foldl_putPoint_last (fun w : Nat × Nat => w.1)
    (fun w => ⟨BitVec.ofNat 16 w.2, .fresh, 0⟩)]
  have named : w ∈ due.filter (fun v => decide (v.1 = w.1)) :=
    List.mem_filter.2 ⟨(hdue w).2 ⟨hw, h⟩, decide_eq_true rfl⟩
  cases last : (due.filter (fun v => decide (v.1 = w.1))).getLast? with
  | none =>
    rw [List.getLast?_eq_none_iff.1 last] at named
    exact absurd named List.not_mem_nil
  | some v =>
    obtain ⟨hv, same⟩ := List.mem_filter.1 (List.mem_of_getLast? last)
    rw [one v ((hdue v).1 hv).1 (of_decide_eq_true same)]

/-- What a due write leaves differs from what stood there. -/
theorem differs_writePoints_iff (one : ∀ v ∈ ws, ∀ w ∈ ws, v.1 = w.1 → v = w) (n : Nat) :
    Differs s (writePoints ws s) n ↔ ∃ w ∈ ws, w.1 = n ∧ WriteDue s w := by
  constructor
  · intro differs
    by_contra none
    have same : getPoint (writePoints ws s) n = getPoint s n :=
      getPoint_writePoints_other (fun w hw e due => none ⟨w, hw, e, due⟩)
    rw [Differs, same] at differs
    exact differs.elim (· rfl) (· rfl)
  · rintro ⟨w, hw, rfl, due⟩
    rw [Differs, getPoint_writePoints_due hw (fun v hv => one v hv w hw) due]
    exact due.elim (fun never => Or.inr (by simp [never])) (fun value => Or.inl value.symm)

/-- The event names the points of the due writes. -/
theorem writePoints_events (one : ∀ v ∈ ws, ∀ w ∈ ws, v.1 = w.1 → v = w) :
    ((∀ w ∈ ws, ¬WriteDue s w) → (writePoints ws s).events = s.events) ∧
    ((∃ w ∈ ws, WriteDue s w) → ∃ names, (writePoints ws s).events = s.events ++ [names] ∧
      ∀ n, n ∈ names ↔ ∃ w ∈ ws, w.1 = n ∧ WriteDue s w) := by
  have differs := differs_writePoints_iff (s := s) one
  obtain ⟨due, hdue, image⟩ := writePoints_eq ws s
  have off (n : Nat) (hn : n ∉ due.map (·.1)) :=
    getD_foldl_putPoint (fun w : Nat × Nat => w.1) (fun w => ⟨BitVec.ofNat 16 w.2, .fresh, 0⟩) due
      s.points n (fun w hw e => hn (List.mem_map.2 ⟨w, hw, e⟩))
  simp only [← differs]
  rw [image] at differs ⊢
  refine ⟨fun none => setImage_events_of_same _ _ s (fun n hn => ?_), fun ⟨w, hw, hdue⟩ =>
    setImage_events_of_differs _ _ s off ⟨w.1, (differs w.1).2 ⟨w, hw, rfl, hdue⟩⟩⟩
  obtain ⟨w, hw, -, hdue⟩ := (differs n).1 hn
  exact none w hw hdue

end

/-! ## Ticks (R22, R28, R34) -/

theorem getPoint_settle {s : State} {n : Nat} (hn : n ≤ 511) : getPoint (settle s) n = getPoint s n :=
  (keepsAll_settle s).points n hn

theorem getPoint_tick10 {s : State} {n : Nat} (hn : n ≤ 511) :
    getPoint (tick10 s) n = (getPoint s n).tick := by
  rw [tick10, (KeepsAll.foldl (fun t a => keepsAll_publishAxis a [2, 3, 5] t) allAxes _).points n hn]
  exact getPoint_map_tick s n

theorem getPoint_staleByAge (s : State) (n : Nat) : getPoint (staleByAge s) n =
    if (getPoint s n).quality = .fresh ∧ ∃ m ∈ s.pointMap, m.2.point = n ∧ 10 * m.2.limit ≤ (getPoint s n).age
    then { getPoint s n with quality := .stale } else getPoint s n := by
  unfold staleByAge
  rw [getPoint_stalePoints]
  refine ite_congr (propext ?_) (fun _ => rfl) (fun _ => rfl)
  simp only [List.mem_map, List.mem_filter, Bool.and_eq_true, decide_eq_true_eq]
  constructor
  · rintro ⟨m, ⟨hm, fresh, old⟩, rfl⟩
    exact ⟨fresh, m, hm, rfl, old⟩
  · rintro ⟨fresh, m, hm, rfl, old⟩
    exact ⟨m, ⟨hm, fresh, old⟩, rfl⟩

/-- Settles O17: the ages and the stale limit point by point, the refresh as an owner's write. -/
theorem agesAndStaleLimitsOfFieldPoints : Obligations.AgesAndStaleLimitsOfFieldPoints := by
  unfold Obligations.AgesAndStaleLimitsOfFieldPoints
  refine ⟨fun s => ⟨settle (tick10 s), rfl, fun n hn => ?ages⟩, ?order, ?refresh,
    fun s => ⟨settle (staleByAge s), rfl, fun n hn => ?stale⟩⟩
  case ages =>
    rw [getPoint_settle hn, getPoint_tick10 hn]
    rfl
  case order =>
    intro s t ht
    have aged : tick10 s = allAxes.foldl (fun u a => publishAxis a [2, 3, 5] u) t := by
      rw [ht]
      rfl
    simp only [allAxes, List.foldl_cons, List.foldl_nil] at aged
    rw [← aged]
    rfl
  case refresh =>
    intro a s t q due ht h2 h3 h5 hdue
    obtain ⟨ws, hws⟩ : ∃ ws, ws = [2, 3, 5].map (fun k =>
      (Config.axisPoint a.val k, axisQuantity s (getAxis s a) k)) := ⟨_, rfl⟩
    have written : t = writePoints ws s := by rw [ht, hws]; rfl
    have members (w : Nat × Nat) : w ∈ ws ↔
        ∃ k, (k = 2 ∨ k = 3 ∨ k = 5) ∧ w = (512 + 8 * a.val + k, q k) := by
      rw [hws]
      simp only [List.map_cons, List.map_nil, List.mem_cons, List.not_mem_nil, or_false]
      constructor
      · rintro (rfl | rfl | rfl)
        · exact ⟨2, Or.inl rfl, by rw [h2]; rfl⟩
        · exact ⟨3, Or.inr (Or.inl rfl), by rw [h3]; rfl⟩
        · exact ⟨5, Or.inr (Or.inr rfl), by rw [h5]; rfl⟩
      · rintro ⟨k, rfl | rfl | rfl, rfl⟩
        · exact Or.inl (by rw [h2]; rfl)
        · exact Or.inr (Or.inl (by rw [h3]; rfl))
        · exact Or.inr (Or.inr (by rw [h5]; rfl))
    have one : ∀ v ∈ ws, ∀ w ∈ ws, v.1 = w.1 → v = w := by
      intro v hv w hw e
      obtain ⟨k, -, rfl⟩ := (members v).1 hv
      obtain ⟨j, -, rfl⟩ := (members w).1 hw
      obtain rfl : k = j := by simpa using e
      rfl
    have due_iff (n : Nat) : due n ↔ ∃ w ∈ ws, w.1 = n ∧ WriteDue s w := by
      rw [hdue]
      constructor
      · rintro ⟨k, hk, rfl, h⟩
        exact ⟨_, (members _).2 ⟨k, hk, rfl⟩, rfl, h⟩
      · rintro ⟨w, hw, rfl, h⟩
        obtain ⟨k, hk, rfl⟩ := (members w).1 hw
        exact ⟨k, hk, rfl, h⟩
    have events := writePoints_events (s := s) one
    rw [written]
    refine ⟨fun k h => ?_, fun n h => ?_, fun none => ?_, fun ⟨n, h⟩ => ?_⟩
    · obtain ⟨w, hw, e, made⟩ := (due_iff _).1 h
      obtain ⟨j, -, rfl⟩ := (members w).1 hw
      obtain rfl : j = k := by simpa using e
      exact getPoint_writePoints_due hw (fun v hv => one v hv _ hw) made
    · exact getPoint_writePoints_other (fun w hw e hw' => h ((due_iff n).2 ⟨w, hw, e, hw'⟩))
    · exact events.1 (fun w hw h => none w.1 ((due_iff _).2 ⟨w, hw, rfl, h⟩))
    · obtain ⟨w, hw, -, h⟩ := (due_iff n).1 h
      simp only [due_iff]
      exact events.2 ⟨w, hw, h⟩
  case stale =>
    rw [getPoint_settle hn, getPoint_staleByAge]

/-! ## Running followers -/

/-- An axis with the coupling and the run it had. -/
def SameCoupling (s t : State) : Prop :=
  ∀ b, (getAxis t b).coupling = (getAxis s b).coupling ∧
    (getAxis t b).run.isSome = (getAxis s b).run.isSome

theorem runningFollowers_congr {s t : State} (h : SameCoupling s t) (a : AxisId) :
    runningFollowers t a = runningFollowers s a := by
  have followers : followersOf t a = followersOf s a :=
    List.filter_congr (fun b _ => by rw [(h b).1])
  unfold runningFollowers
  rw [followers]
  exact List.filter_congr (fun b _ => (h b).2)

theorem sameCoupling_modifyAxis (a : AxisId) (f : Axis → Axis) (s : State)
    (hc : (f (getAxis s a)).cfg = (getAxis s a).cfg)
    (hr : (f (getAxis s a)).run.isSome = (getAxis s a).run.isSome) : SameCoupling s (modifyAxis a f s) := by
  intro b
  rw [getAxis_modifyAxis]
  split_ifs with same
  · subst same
    exact ⟨by rw [Axis.coupling, hc, Axis.coupling], hr⟩
  · exact ⟨rfl, rfl⟩

/-! ## The counts of an axis alone (R76) -/

/-- An axis after `n` counts in a direction. -/
def Axis.counted (up : Bool) (n : Nat) (x : Axis) : Axis :=
  { x with cp := if up then x.cp + n else x.cp - n, pulses := x.pulses + n }

theorem emitCounts_alone (n : Nat) (a : AxisId) (up : Bool) (s : State)
    (alone : runningFollowers s a = []) :
    emitCounts n a up s = (modifyAxis a (Axis.counted up n) s, none) := by
  induction n generalizing s with
  | zero =>
    have same : Axis.counted up 0 (getAxis s a) = getAxis s a := by
      cases up <;> simp [Axis.counted]
    rw [emitCounts, modifyAxis, same]
    simp [setAxis, getAxis]
  | succ n ih =>
    have step : emitCounts (n + 1) a up s = emitCounts n a up (modifyAxis a (Axis.counted up 1) s) := by
      rw [emitCounts, alone]
      rfl
    rw [step, ih _ ((runningFollowers_congr (sameCoupling_modifyAxis a _ s (by rfl) (by rfl)) a).trans alone)]
    have sum : Axis.counted up n (Axis.counted up 1 (getAxis s a)) = Axis.counted up (n + 1) (getAxis s a) := by
      cases up <;> simp only [Axis.counted, Bool.false_eq_true, ↓reduceIte, Axis.mk.injEq, true_and]
      all_goals
        push_cast
        omega
    simp only [modifyAxis, getAxis_setAxis_same, setAxis_setAxis, sum]

theorem clearPulses_alone {a : AxisId} {s : State} (alone : runningFollowers s a = []) :
    clearPulses a s = modifyAxis a (fun x => { x with pulses := 0 }) s := by
  rw [clearPulses, alone]
  rfl

/-- Settles O30: the pulses of an axis alone, each a count of CP. -/
theorem positionStepEmitsWholeCounts : Obligations.PositionStepEmitsWholeCounts := by
  unfold Obligations.PositionStepEmitsWholeCounts
  intro a c v s n alone hn
  have count : pulsesOf c v = n := by
    rw [hn, pulsesOf, Current.remaining]
    split_ifs <;> omega
  have cleared := clearPulses_alone alone
  have stillAlone : runningFollowers (clearPulses a s) a = [] := by
    rw [cleared, runningFollowers_congr (sameCoupling_modifyAxis a _ s (by rfl) (by rfl)), alone]
  have step : positionStep a c v s = (modifyAxis a (fun x => { x with current := some { c with pacc := c.pacc + v } })
      (modifyAxis a (Axis.counted c.up n) (modifyAxis a (fun x => { x with pulses := 0 }) s)), none) := by
    rw [positionStep, emitCounts_alone _ a c.up _ stillAlone, count, cleared]
  rw [step]
  refine ⟨rfl, ?_, ?_, ?_, fun slow => ?_, fun b hb => ?_⟩
  · simp only [getAxis_modifyAxis, ↓reduceIte, Axis.counted]
  · simp only [getAxis_modifyAxis, ↓reduceIte, Axis.counted, Nat.zero_add]
  · simp only [getAxis_modifyAxis, ↓reduceIte]
  · rw [hn]
    split_ifs <;> omega
  · simp only [getAxis_modifyAxis, hb, ↓reduceIte]

/-! ## The coupler (R103) -/

/-- A follower after `n` leader counts that its window allows. -/
def Axis.followed (y : Axis) (r : CoupledRun) (k : Coupling) (n : Nat) : Axis :=
  { y with cp := if r.up then y.cp + ((r.e + n * k.nf) / k.nl : Nat) else y.cp - ((r.e + n * k.nf) / k.nl : Nat)
           pulses := y.pulses + (r.e + n * k.nf) / k.nl
           run := some { r with e := (r.e + n * k.nf) % k.nl } }

theorem followCount_eq {y : Axis} {r : CoupledRun} {cfg : AxisCfg} {k : Coupling} (run : y.run = some r)
    (hc : y.cfg = some cfg) (hk : cfg.coupling = some k) (slower : k.nf ≤ k.nl) (rest : r.e < k.nl)
    (high : r.up = true → y.cp + ((r.e + k.nf) / k.nl : Nat) ≤ cfg.high)
    (low : r.up = false → cfg.low ≤ y.cp - ((r.e + k.nf) / k.nl : Nat)) :
    followCount y = some (y.followed r k 1) := by
  have coupled : y.coupling = some k := by simp only [Axis.coupling, hc, hk]
  simp only [followCount, run, hc, coupled, Axis.followed, Nat.one_mul]
  by_cases short : r.e + k.nf < k.nl
  · rw [if_pos short, Nat.div_eq_of_lt short, Nat.mod_eq_of_lt short]
    simp [← hc]
  · have one : (r.e + k.nf) / k.nl = 1 :=
      Nat.div_eq_of_lt_le (by omega) (by omega)
    have left : (r.e + k.nf) % k.nl = r.e + k.nf - k.nl := by
      rw [Nat.mod_eq_sub_mod (by omega), Nat.mod_eq_of_lt (by omega)]
    have within : ¬((r.up = true ∧ cfg.high < if r.up then y.cp + 1 else y.cp - 1) ∨
        (r.up = false ∧ (if r.up then y.cp + 1 else y.cp - 1) < cfg.low)) := by
      rw [one] at high low
      cases up : r.up with
      | true => simpa using high up
      | false => simpa using low up
    rw [if_neg short, if_neg within, one, left, ← hc]
    rfl

/-- Settles O34: count by count; quotients and remainders of the counts add up. -/
theorem couplerTakesItsShareOfCounts : Obligations.CouplerTakesItsShareOfCounts := by
  unfold Obligations.CouplerTakesItsShareOfCounts
  intro n
  induction n with
  | zero =>
    intro a b up s r cfg k hab running run hc hk slower rest high low
    have none : r.e / k.nl = 0 := Nat.div_eq_of_lt rest
    simp [emitCounts, none, Nat.mod_eq_of_lt rest, run]
  | succ n ih =>
    intro a b up s r cfg k hab running run hc hk slower rest high low
    have positive : 0 < k.nl := by omega
    have split : r.e + (n + 1) * k.nf = (r.e + k.nf) + n * k.nf := by ring
    have quotient : (r.e + (n + 1) * k.nf) / k.nl =
        (r.e + k.nf) / k.nl + ((r.e + k.nf) % k.nl + n * k.nf) / k.nl := by
      rw [split]
      conv_lhs => rw [← Nat.div_add_mod (r.e + k.nf) k.nl, Nat.add_assoc, Nat.mul_add_div positive]
    have remainder : (r.e + (n + 1) * k.nf) % k.nl = ((r.e + k.nf) % k.nl + n * k.nf) % k.nl := by
      rw [split, Nat.mod_add_mod]
    have fewer : (((r.e + k.nf) / k.nl : Nat) : Int) ≤ ((r.e + (n + 1) * k.nf) / k.nl : Nat) := by
      rw [quotient]
      exact_mod_cast Nat.le_add_right _ _
    have first : followCount (getAxis s b) = some ((getAxis s b).followed r k 1) :=
      followCount_eq run hc hk slower rest (fun u => by linarith [high u]) (fun u => by linarith [low u])
    obtain ⟨t, ht⟩ : ∃ t, t = modifyAxis a (Axis.counted up 1) (setAxis b ((getAxis s b).followed r k 1) s) :=
      ⟨_, rfl⟩
    have step : emitCounts (n + 1) a up s = emitCounts n a up t := by
      rw [emitCounts, running, ht]
      simp only [List.find?_cons, List.find?_nil, first, Option.isNone_some, List.foldl_cons, List.foldl_nil]
      rfl
    have follower : getAxis t b = (getAxis s b).followed r k 1 := by
      rw [ht, getAxis_modifyAxis, if_neg hab.symm, getAxis_setAxis_same]
    have leader : getAxis t a = Axis.counted up 1 (getAxis s a) := by
      rw [ht, getAxis_modifyAxis, if_pos rfl, getAxis_setAxis_other _ _ _ _ hab]
    have coupling : SameCoupling s t := by
      intro c
      rw [ht, getAxis_modifyAxis, getAxis_setAxis_other _ _ _ _ hab, getAxis_setAxis]
      split_ifs with h1 h2
      · subst h1; exact ⟨rfl, rfl⟩
      · subst h2; exact ⟨rfl, by rw [run]; rfl⟩
      · exact ⟨rfl, rfl⟩
    obtain ⟨window, hcp, hrun, hleader⟩ := ih a b up t { r with e := (r.e + k.nf) % k.nl } cfg k hab
      ((runningFollowers_congr coupling a).trans running)
      (by rw [follower, Axis.followed, Nat.one_mul]) (by rw [follower]; exact hc) hk slower
      (Nat.mod_lt _ positive)
      (fun u => by
        have := high u
        simp only [follower, Axis.followed, Nat.one_mul, show r.up = true from u, ↓reduceIte]
        omega)
      (fun u => by
        have := low u
        simp only [follower, Axis.followed, Nat.one_mul, show r.up = false from u, Bool.false_eq_true,
          ↓reduceIte]
        omega)
    rw [step]
    refine ⟨window, ?_, ?_, ?_⟩
    · rw [hcp, follower, quotient]
      simp only [Axis.followed, Nat.one_mul]
      split_ifs <;> push_cast <;> omega
    · rw [hrun, remainder]
    · rw [hleader, leader]
      simp only [Axis.counted]
      split_ifs <;> push_cast <;> omega

/-! ## Announcements between partners (R105) -/

/-- Settles O35: the oldest announcement for the axis is the first that names it. -/
theorem partnerAnnouncementStopsTheLeader : Obligations.PartnerAnnouncementStopsTheLeader := by
  unfold Obligations.PartnerAnnouncementStopsTheLeader
  refine ⟨fun a s t older newer m hs older_other own ht => ?taken, fun b k st s hk => ?joined⟩
  case taken =>
    have first : takeFirst (fun q => decide (q.target = a)) s.partner = some (m, older ++ newer) := by
      rw [hs]
      exact takeFirst_append older newer m (fun q hq => by simpa using older_other q hq) (by simpa using own)
    have command : exec (.partnerAnnouncement a) s = .next (settle (takePartner m t)) := by
      simp only [exec, execPartnerAnnouncement, partnerStep, first, ht]
    rw [command]
    refine ⟨?_, ?_, ?_, ?_⟩
    all_goals
      intro stop
      rw [takePartner, stop, own]
  case joined =>
    rw [tellLeader, hk]
    rfl

/-! ## Gates (R134) -/

/-- Where the parents come to an end within the fuel, more fuel changes nothing. -/
theorem gateShutIn_fuel (zs : Tab Zone) (fuel z : Nat) (h : (ancestors zs fuel z).length < fuel) :
    gateShutIn zs (fuel + 1) z = gateShutIn zs fuel z := by
  induction fuel generalizing z with
  | zero => omega
  | succ fuel ih =>
    rw [gateShutIn, gateShutIn]
    cases hz : Tab.get? zs z with
    | none => rfl
    | some w =>
      cases hp : w.cfg.parent with
      | none => simp only [hp]
      | some p =>
        simp only [hp]
        congr 1
        cases hq : Tab.get? zs p with
        | none =>
          cases fuel <;> simp [gateShutIn, hq]
        | some q =>
          refine ih p ?_
          simp only [ancestors, hz, hq, hp, Option.bind_some, Option.isSome_some, ↓reduceIte,
            List.length_cons] at h
          omega

theorem shuts_iff (st : ZoneState) :
    st.shuts = true ↔ st = .closing ∨ st = .secured ∨ st = .incomplete := by
  cases st <;> decide

/-- Settles O43: one step of the walk to the parents, whose gate reads the same with the fuel of its own. -/
theorem gateIsShutByStateOrParent : Obligations.GateIsShutByStateOrParent := by
  unfold Obligations.GateIsShutByStateOrParent
  intro s z w hz short
  have parent (p : Nat) (hp : w.cfg.parent = some p) : gateShutIn s.zones 16 p = gateShut s p := by
    refine (gateShutIn_fuel s.zones 16 p ?_).symm
    rw [Config.zoneFuel, ancestors, hz, Option.bind_some, hp] at short
    dsimp only at short
    cases hq : Tab.get? s.zones p with
    | none => simp [ancestors, hq]
    | some q =>
      rw [hq, Option.isSome_some, if_pos rfl, List.length_cons] at short
      omega
  have step : gateShut s z = (w.state.shuts || match w.cfg.parent with
      | none => false
      | some p => gateShutIn s.zones 16 p) := by
    rw [gateShut, Config.zoneFuel, gateShutIn, hz] <;> rfl
  rw [step, Bool.or_eq_true, shuts_iff, or_assoc, or_assoc]
  refine or_congr_right (or_congr_right (or_congr_right ?_))
  cases hp : w.cfg.parent with
  | none => simp
  | some p => simp [parent p hp]

end Sys2Proof.Machine

/-! # Proofs: the operations that leave the axes as they are

Reports, queues, points and calls have nothing to do with the axis channels, the mode, the fault classes,
the doors and the rebuild. -/

namespace Sys2Proof.Machine

open Sys2Proof

/-- Every internal point is NEVER, or FRESH with age 0: so it stands between a restart and the next tick. -/
def Clean (s : State) : Prop :=
  ∀ n, 512 ≤ n → (getPoint s n).quality = .never ∨
    ((getPoint s n).quality = .fresh ∧ (getPoint s n).age = 0)

/-- What an operation beside the axis channels leaves. -/
structure Beside (s t : State) : Prop where
  axes : t.axes = s.axes
  mode : t.mode = s.mode
  rebuilding : t.rebuilding.isSome = s.rebuilding.isSome
  classes : t.classes = s.classes
  doors : t.doors = s.doors
  clean : Clean s → Clean t

variable {s t u : State}

theorem Beside.refl (s : State) : Beside s s := ⟨rfl, rfl, rfl, rfl, rfl, id⟩

theorem Beside.trans (h : Beside s t) (g : Beside t u) : Beside s u :=
  ⟨g.axes.trans h.axes, g.mode.trans h.mode, g.rebuilding.trans h.rebuilding, g.classes.trans h.classes,
    g.doors.trans h.doors, fun c => g.clean (h.clean c)⟩

theorem Beside.foldl {α : Type} {f : State → α → State} (h : ∀ t x, Beside t (f t x)) (l : List α)
    (s : State) : Beside s (l.foldl f s) := by
  induction l generalizing s with
  | nil => exact .refl s
  | cons x l ih => exact (h s x).trans (ih (f s x))

theorem Beside.getAxis (h : Beside s t) (a : AxisId) : getAxis t a = getAxis s a := by
  unfold Machine.getAxis
  rw [h.axes]

/-! ## Reports and queues -/

theorem beside_sendReport (r : Report) (s : State) : Beside s (sendReport r s) := ⟨rfl, rfl, rfl, rfl, rfl, id⟩

theorem beside_takeReport (s : State) : Beside s (takeReport s) := by
  unfold takeReport
  split
  · exact ⟨rfl, rfl, rfl, rfl, rfl, id⟩
  · exact .refl s

theorem beside_takeForwarded (s : State) : Beside s (takeForwarded s) := by
  unfold takeForwarded
  split
  · exact ⟨rfl, rfl, rfl, rfl, rfl, id⟩
  · exact .refl s

theorem beside_kickB (s : State) : Beside s (kickB s) := by
  unfold kickB
  split
  · exact .refl s
  · split
    · exact ⟨rfl, rfl, rfl, rfl, rfl, id⟩
    · split
      · split
        · exact beside_takeForwarded s
        · exact beside_takeReport s
      · split
        · exact beside_takeReport s
        · exact beside_takeForwarded s

theorem beside_admitReport (r : Report) (s : State) : Beside s (admitReport r s) := by
  unfold admitReport
  split
  · exact ⟨rfl, rfl, rfl, rfl, rfl, id⟩
  · split
    · exact ⟨rfl, rfl, rfl, rfl, rfl, id⟩
    · split <;> exact ⟨rfl, rfl, rfl, rfl, rfl, id⟩

theorem beside_offerReport (r : Report) (s : State) : Beside s (offerReport r s) := by
  unfold offerReport
  split
  next held h => exact ⟨rfl, rfl, by rw [h]; rfl, rfl, rfl, id⟩
  next => exact (beside_admitReport r s).trans (beside_kickB _)

theorem beside_routine (b : ReportBody) (s : State) : Beside s (routine b s) := beside_offerReport _ s

theorem beside_alarm (b : ReportBody) (s : State) : Beside s (alarm b s) := beside_offerReport _ s

theorem beside_refuse (why : RefuseReason) (f : Frame) (o : Port) (rule : Option Nat)
    (e : Option Evaluation) (s : State) : Beside s (refuse why f o rule e s) := beside_offerReport _ s

theorem beside_refuseHeld (why : RefuseReason) (s : State) : Beside s (refuseHeld why s) :=
  Beside.trans (t := { s with hold := [] }) ⟨rfl, rfl, rfl, rfl, rfl, id⟩
    (Beside.foldl (fun t _ => beside_refuse _ _ _ _ _ t) _ _)

theorem beside_kickD (s : State) : Beside s (kickD s) := by
  unfold kickD
  split
  · exact .refl s
  · split
    · exact ⟨rfl, rfl, rfl, rfl, rfl, id⟩
    · split
      · exact ⟨rfl, rfl, rfl, rfl, rfl, id⟩
      · split
        · exact ⟨rfl, rfl, rfl, rfl, rfl, id⟩
        · exact .refl s

theorem beside_offerSafety (f : Frame) (s : State) : Beside s (offerSafety f s).1 := by
  unfold offerSafety
  split
  · exact Beside.trans (t := { s with link := { s.link with safety := s.link.safety ++ [f] } })
      ⟨rfl, rfl, rfl, rfl, rfl, id⟩ (beside_kickD _)
  · exact .refl s

theorem beside_offerOrder (f : Frame) (s : State) : Beside s (offerOrder f s).1 := by
  unfold offerOrder
  split
  · exact Beside.trans (t := { s with link := { s.link with forward := s.link.forward ++ [f] } })
      ⟨rfl, rfl, rfl, rfl, rfl, id⟩ (beside_kickD _)
  · exact .refl s

/-! ## Points -/

theorem WriteDue.not_of_clean {w : Nat × Nat} (c : Clean s) (hw : 512 ≤ w.1) (h : ¬WriteDue s w) :
    getPoint s w.1 = ⟨BitVec.ofNat 16 w.2, .fresh, 0⟩ := by
  simp only [WriteDue, not_or, not_not] at h
  obtain ⟨never, value⟩ := h
  obtain ⟨fresh, age⟩ := (c w.1 hw).resolve_left never
  rw [← value, ← fresh, ← age]

/-- In a clean image a written point reads as it was written. -/
theorem getPoint_writePoints {ws : List (Nat × Nat)} {w : Nat × Nat} (c : Clean s) (hw : w ∈ ws)
    (above : 512 ≤ w.1) (one : ∀ v ∈ ws, v.1 = w.1 → v = w) :
    getPoint (writePoints ws s) w.1 = ⟨BitVec.ofNat 16 w.2, .fresh, 0⟩ := by
  by_cases due : WriteDue s w
  · exact getPoint_writePoints_due hw one due
  · rw [getPoint_writePoints_other (fun v hv e => (one v hv e).symm ▸ due)]
    exact WriteDue.not_of_clean c above due

theorem clean_writePoints (ws : List (Nat × Nat)) (c : Clean s) : Clean (writePoints ws s) := by
  intro n hn
  obtain ⟨due, -, image⟩ := writePoints_eq ws s
  rw [image, getPoint_setImage, getD_foldl_putPoint_last (fun w : Nat × Nat => w.1)
    (fun w => ⟨BitVec.ofNat 16 w.2, .fresh, 0⟩)]
  split
  · exact Or.inr ⟨rfl, rfl⟩
  · exact c n hn

theorem beside_writePoints (ws : List (Nat × Nat)) (s : State) : Beside s (writePoints ws s) := by
  have clean := clean_writePoints (s := s) ws
  obtain ⟨due, -, image⟩ := writePoints_eq ws s
  obtain ⟨es, he⟩ := setImage_cases (due.foldl (fun t w => putPoint t w.1 ⟨BitVec.ofNat 16 w.2, .fresh, 0⟩)
    s.points) (due.map (·.1)) s
  rw [image] at clean ⊢
  rw [he] at clean ⊢
  exact ⟨rfl, rfl, rfl, rfl, rfl, clean⟩

theorem beside_publishAxis (a : AxisId) (ks : List Nat) (s : State) : Beside s (publishAxis a ks s) :=
  beside_writePoints _ s

theorem beside_publishMotion (a : AxisId) (s : State) : Beside s (publishMotion a s) :=
  beside_publishAxis a _ s

theorem beside_announceMode (prev new : Mode) (cause : ModeCause) (s : State) :
    Beside s (announceMode prev new cause s) :=
  (beside_writePoints _ s).trans (beside_alarm _ _)

/-! ## Calls -/

theorem beside_callReport (c : Call) (e : CallEvent) (o : ZoneSet) (s : State) :
    Beside s (callReport c e o s) := beside_offerReport _ s

theorem beside_publishOwners (s : State) : Beside s (publishOwners s) := by
  unfold publishOwners
  split
  · exact .refl s
  · exact beside_writePoints _ s

theorem beside_recompute (s : State) : Beside s (recompute s) := by
  unfold recompute
  have owned : Beside s { s with calls := assignOwners [] s.calls } := ⟨rfl, rfl, rfl, rfl, rfl, id⟩
  have published := owned.trans (beside_publishOwners { s with calls := assignOwners [] s.calls })
  extract_lets _ s1 after
  refine (published.trans (u := { s1 with calls := after.map (·.1) }) ⟨rfl, rfl, rfl, rfl, rfl, id⟩).trans
    (Beside.foldl (fun t r => ?_) _ _)
  split
  · exact beside_callReport _ _ _ t
  · exact .refl t

theorem beside_calls (s : State) (cs : List Call) : Beside s { s with calls := cs } := ⟨rfl, rfl, rfl, rfl, rfl, id⟩

theorem beside_endFirst (p : Call → Bool) (why : EndReason) (s : State) : Beside s (endFirst p why s) := by
  unfold endFirst
  split
  next c rest h =>
    exact ((beside_calls s rest).trans (beside_callReport c (.ended why) 0 _)).trans (beside_recompute _)
  next => exact .refl s

theorem beside_endAll (p : Call → Bool) (why : EndReason) (s : State) : Beside s (endAll p why s) :=
  Beside.foldl (fun t _ => beside_endFirst p why t) _ s

theorem beside_joinCall (c : Call) (s : State) : Beside s (joinCall c s) :=
  Beside.trans (t := { s with calls := s.calls ++ [c], lastNumber := c.number }) ⟨rfl, rfl, rfl, rfl, rfl, id⟩
    (beside_callReport c .started 0 _)

theorem beside_startCall (t : Nat) (who : Starter) (override : Option ZoneSet) (s : State) :
    Beside s (startCall t who override s).1 := by
  unfold startCall
  split
  · exact .refl s
  · extract_lets join
    have joined (u : State) : Beside u (join u).1 := (beside_joinCall _ u).trans (beside_recompute _)
    split
    · exact joined s
    · split
      · split
        next c rest h =>
          exact (((beside_calls s rest).trans (beside_callReport c (.ended .displaced) 0 _)).trans
            (beside_recompute _)).trans (joined _)
        next => exact .refl s
      · exact .refl s

theorem beside_tellMoving (a : AxisId) (s : State) : Beside s (tellMoving a s) := by
  unfold tellMoving
  split
  · exact .refl s
  next t _ =>
    split
    · exact .refl s
    · have started := beside_startCall t (.axis a) none s
      split
      next u refused =>
        rw [refused] at started
        split
        · exact started.trans (beside_offerReport _ _)
        · exact started
      next u _ _ taken =>
        rw [taken] at started
        exact started

theorem beside_tellAtRest (a : AxisId) (s : State) : Beside s (tellAtRest a s) := beside_endFirst _ _ s

theorem beside_tellIfAtRest (a : AxisId) (s : State) : Beside s (tellIfAtRest a s) := by
  unfold tellIfAtRest
  split
  case h_4 => exact .refl s
  all_goals exact beside_tellAtRest a s

theorem beside_reportMove (a : AxisId) (tag : Byte) (o : MoveOutcome) (cp : Int) (s : State) :
    Beside s (reportMove a tag o cp s) := beside_routine _ s

theorem beside_tellLeader (a : AxisId) (st : PartnerStop) (s : State) : Beside s (tellLeader a st s) := by
  unfold tellLeader
  split
  · exact ⟨rfl, rfl, rfl, rfl, rfl, id⟩
  · exact .refl s

/-! ## Zones -/

theorem beside_setZone (z : Nat) (w : Zone) (s : State) : Beside s (setZone z w s) := ⟨rfl, rfl, rfl, rfl, rfl, id⟩

theorem beside_modifyZone (z : Nat) (f : Zone → Zone) (s : State) : Beside s (modifyZone z f s) := by
  unfold modifyZone
  split
  · exact beside_setZone z _ s
  · exact .refl s

theorem beside_setReclose (z : Nat) (running : Bool) (s : State) : Beside s (setReclose z running s) := by
  unfold setReclose
  split
  · exact beside_setZone z _ s
  · exact .refl s

theorem beside_offerRound (l : List (Nat × Door)) (s : State) : Beside s (offerRound l s) := by
  induction l generalizing s with
  | nil => exact .refl s
  | cons e l ih =>
    unfold offerRound
    split
    · exact ih s
    · have offered := beside_offerSafety (closeFrame e.2.cfg) s
      split
      next t taken => rw [taken] at offered; exact offered.trans (ih t)
      next t refused => rw [refused] at offered; exact offered

theorem beside_offerCloses (l : List (Nat × Door)) (s : State) : Beside s (offerCloses l s).1 := by
  induction l generalizing s with
  | nil => exact .refl s
  | cons e l ih =>
    unfold offerCloses
    split
    · exact ih s
    · have offered := beside_offerSafety (closeFrame e.2.cfg) s
      split
      next t taken => rw [taken] at offered; exact offered.trans (ih t)
      next t refused => rw [refused] at offered; exact offered

theorem beside_publishZones (s : State) : Beside s (publishZones s) := beside_writePoints _ s

theorem beside_zoneAnnounced (z : Nat) (prev new : ZoneState) (s : State) :
    Beside s (zoneAnnounced z prev new s) := by
  unfold zoneAnnounced
  split
  · split
    · exact .refl s
    · exact beside_setReclose z true s
  · exact (beside_offerRound _ s).trans (beside_setReclose z true _)
  all_goals exact beside_setReclose z false s

theorem beside_reportZone (c : ZoneChange) (s : State) : Beside s (reportZone c s) :=
  (beside_alarm _ s).trans (beside_zoneAnnounced _ _ _ _)

theorem beside_finishChanges (cs : List ZoneChange) (s : State) : Beside s (finishChanges cs s) := by
  unfold finishChanges
  split
  · exact .refl s
  · exact (beside_publishZones s).trans (Beside.foldl (fun t c => beside_reportZone c t) cs _)

theorem beside_leaveClosing (z : Nat) (s : State) : Beside s (leaveClosing z s).1 :=
  beside_modifyZone z _ s

theorem beside_leaveAlert (z : Nat) (s : State) : Beside s (leaveAlert z s) := by
  unfold leaveAlert
  split
  · exact .refl s
  next w _ =>
    extract_lets s1
    have timer : Beside s s1 := beside_setZone z _ s
    split
    · exact timer
    · exact timer.trans (beside_endFirst _ _ _)

end Sys2Proof.Machine

/-! # Proofs: orders that pass their judgement (R41, R51, R53, R67 to R71, R81, R98, R127 to R132, R151 to R159) -/

namespace Sys2Proof.Machine

open Sys2Proof

/-! ## A judgement that passes -/

section
variable {f : Frame} {o : Port} {s t : State}

theorem judge_of_passes (h : PassesJudgement f o s) :
    judge f o s = match lookupRule s o f with
      | none => passes f o none false none s
      | some (n, r) => passes f o (some n) r.notify (some (evalRule s r).1) s := by
  obtain ⟨mode, decode, gate, rule⟩ := h
  cases hr : lookupRule s o f with
  | none =>
    rw [hr] at rule
    simp only [judge, mode, not_undecoded decode, gate, hr, rule, reduceCtorEq, ↓reduceIte]
  | some e =>
    rw [hr] at rule
    obtain ⟨n, r⟩ := e
    simp only [judge, mode, not_undecoded decode, gate, hr, rule, reduceCtorEq, ↓reduceIte]

theorem judge_of_taken (h : PassesJudgement f o s) (pass : passOrder f s = (t, none)) :
    judge f o s = passNote s f o t := by
  rw [judge_of_passes h, passNote]
  cases lookupRule s o f with
  | none => simp only [passes, pass, Bool.false_eq_true, ↓reduceIte]
  | some e => simp only [passes, pass]

theorem judge_of_blocked {why : RefuseReason} (h : PassesJudgement f o s)
    (pass : passOrder f s = (t, some why)) :
    judge f o s = refuse why f o ((lookupRule s o f).map (·.1))
      ((lookupRule s o f).map (fun e => (evalRule s e.2).1)) t := by
  rw [judge_of_passes h]
  cases lookupRule s o f with
  | none => simp only [passes, pass, Option.map_none]
  | some e => simp only [passes, pass, Option.map_some]

end

theorem destination_of_toPart {s : State} {p : Port} {f : Frame} (hd : f.dest = 0) :
    destination s p f = .part := if_pos hd

section
variable {p : Port} {bytes : List Byte} {f : Frame} {s t u : State} (h : Arrives p bytes f s t)
  (hk : f.kind = .order)
include h hk

/-- R53: an order to the part that its block takes. -/
theorem exec_delivered (hd : f.dest = 0) (hj : PassesJudgement f p t) (taken : deliver f t = (u, none)) :
    exec (frameCommand (partRow f.code) p bytes) s = .next (settle (passNote t f p u)) := by
  rw [← rowOf_toPart p hk hd, exec_judged_order h hk (by rw [destination_of_toPart hd]; decide) (.inr hd),
    judge_of_taken hj (passOrder_of_taken hd taken)]

/-- R53: an order to the part that its block refuses. -/
theorem exec_undelivered {x : SubReason} (hd : f.dest = 0) (hj : PassesJudgement f p t)
    (refused : deliver f t = (u, some x)) :
    exec (frameCommand (partRow f.code) p bytes) s = .next (settle (refuse (.target x) f p
      ((lookupRule t p f).map (·.1)) ((lookupRule t p f).map (fun e => (evalRule t e.2).1)) u)) := by
  rw [← rowOf_toPart p hk hd, exec_judged_order h hk (by rw [destination_of_toPart hd]; decide) (.inr hd),
    judge_of_blocked hj (passOrder_of_refused hd refused)]

end

/-! ## Orders for stations (R7, R51) -/

section
variable {bytes : List Byte} {f : Frame} {s t : State} (h : Arrives .b bytes f s t) (hk : f.kind = .order)
  (hd : f.dest ≠ 0)
include h hk hd

theorem exec_forwarded (across : destination t .b f = .across) (hj : PassesJudgement f .b t)
    (room : t.link.forward.length < Config.forwardCap) :
    exec (frameCommand (stationRow f.code) .b bytes) s = .next (settle (passNote t f .b
      (kickD { t with link := { t.link with forward := t.link.forward ++ [f] } }))) := by
  rw [← rowOf_toStation hk hd, exec_judged_order h hk (by rw [across]; decide) (.inl rfl),
    judge_of_taken hj (passOrder_of_room hd room)]

theorem exec_local (near : destination t .b f = .near) :
    exec (frameCommand (stationRow f.code) .b bytes) s = .next (settle t) := by
  rw [← rowOf_toStation hk hd, exec_frameCommand_of_isJudged (isJudged_rowOf hk (.inl rfl)),
    receive_of_arrives h, onOrder, near]

end

/-- Settles O20: the row is that of the code, and each row's command judges its order. -/
theorem passedStationOrderIsForwarded : Obligations.PassedStationOrderIsForwarded := by
  unfold Obligations.PassedStationOrderIsForwarded
  intro bytes f s t h hk hd
  have close (code : f.code = 0x10) : stationRow f.code = .doorClose := if_pos code
  have opens (code : f.code = 0x11) : stationRow f.code = .doorOpen := by rw [code]; rfl
  have output (c1 : f.code ≠ 0x10) (c2 : f.code ≠ 0x11) : stationRow f.code = .outputOrder := by
    rw [stationRow, if_neg c1, if_neg c2]
  constructor
  · intro across hj room
    have forwarded := exec_forwarded h hk hd across hj room
    exact ⟨fun code => by rwa [close code] at forwarded, fun code => by rwa [opens code] at forwarded,
      fun c1 c2 => by rwa [output c1 c2] at forwarded⟩
  · intro near
    have discarded := exec_local h hk hd near
    exact ⟨fun code => by rwa [close code] at discarded, fun code => by rwa [opens code] at discarded,
      fun c1 c2 => by rwa [output c1 c2] at discarded⟩

/-! ## The start of a move (R66 to R73) -/

theorem startNext_of_latch {a : AxisId} {s : State} (n : Nat) (h : (getAxis s a).latch = false) :
    startNext n a s = (s, none) := by
  have latch : (getAxis s a).takeUp.latch = false := by
    rw [Axis.takeUp]
    split_ifs <;> exact h
  cases n with
  | zero => rfl
  | succ n =>
    rw [startNext]
    dsimp only
    split
    · rw [if_neg (by simp [latch])]
    · rfl

theorem startNext_of_empty {a : AxisId} {s : State} (n : Nat) (h : (getAxis s a).pending = []) :
    startNext n a s = (s, none) := by
  have pending : (getAxis s a).takeUp.pending = [] := by
    rw [Axis.takeUp]
    split_ifs <;> exact h
  cases n with
  | zero => rfl
  | succ n =>
    rw [startNext]
    dsimp only
    split
    next found => rw [pending] at found; cases found
    next => rfl

theorem startNext_of_state {a : AxisId} {s : State} (n : Nat) (idle : (getAxis s a).state ≠ .idle)
    (float : (getAxis s a).state ≠ .float) : startNext n a s = (s, none) := by
  have same : (getAxis s a).takeUp = getAxis s a := if_neg float
  cases n with
  | zero => rfl
  | succ n =>
    rw [startNext]
    dsimp only
    split
    · rw [same, if_neg (by simp [idle, float])]
    · rfl

theorem startPending_of_none {a : AxisId} {s t : State} (moving : List AxisId)
    (h : startNext (Config.pendingCap + 1) a s = (t, none)) :
    startPending moving a s = publishMotion a t := by
  rw [startPending, h]

theorem startPending_of_some {a : AxisId} {s t : State} {c : Current} {q : Phase}
    (h : startNext (Config.pendingCap + 1) a s = (t, some (c, q))) :
    startPending [] a s = (followersOf (tellMoving a (publishMotion a t)) a).foldl
      (fun v b => beginRun c q b v) (tellMoving a (publishMotion a t)) := by
  rw [startPending, h]
  simp

theorem followersOf_congr {s t : State} (h : ∀ b, (getAxis t b).coupling = (getAxis s b).coupling)
    (a : AxisId) : followersOf t a = followersOf s a :=
  List.filter_congr (fun b _ => by rw [h b])

/-- Settles O26: the checks of R67 pass, and without the latch nothing starts. -/
theorem moveJoinsTheMoveList : Obligations.MoveJoinsTheMoveList := by
  unfold Obligations.MoveJoinsTheMoveList
  intro p bytes f s t m cfg x e h hk hd code hj decoded hx hcfg enabled sound uncoupled room absolute
    behind inMotion atRest low high above below
  have stored : moveEnd x m = e := by
    unfold moveEnd
    cases relative : m.relative with
    | false => exact (absolute relative).symm
    | true =>
      rw [if_pos rfl]
      cases hp : x.pending.getLast? with
      | some q =>
        obtain ⟨older, split⟩ := List.getLast?_eq_some_iff.1 hp
        exact (behind older q relative split).symm
      | none =>
        have empty := List.getLast?_eq_none_iff.1 hp
        dsimp only
        split
        next c state current => exact (inMotion c relative empty state current).symm
        next other =>
          refine (atRest relative empty ?_).symm
          by_contra moving
          obtain ⟨state, current⟩ := not_or.1 moving
          obtain ⟨c, current⟩ := Option.ne_none_iff_exists'.1 current
          exact other c (not_not.1 state) current
  have row : partRow f.code = .move := by rw [code]; rfl
  have taken : deliver f t = (startPending [] (axisOf f) (setAxis (axisOf f)
      { x with pending := x.pending ++ [{ m with dest := e }] } t), none) := by
    simp only [deliver, row, deliverMove, decoded, ← hx, hcfg]
    rw [if_neg (by simp [enabled, sound]), if_neg (by simp [Axis.isFollower, Axis.coupling, hcfg, uncoupled]),
      if_neg (show ¬Config.pendingCap ≤ x.pending.length from Nat.not_le.2 room), stored, if_neg (by simp only [Config.posMin, Config.posMax]; omega)]
  have delivered := exec_delivered h hk hd hj taken
  rw [row] at delivered
  refine ⟨delivered, fun latch => ?_⟩
  rw [startPending_of_none [] (startNext_of_latch _ (by simpa using latch))] at delivered
  exact delivered

/-- Settles O36. -/
theorem axisClearLeavesFault : Obligations.AxisClearLeavesFault := by
  unfold Obligations.AxisClearLeavesFault
  intro p bytes f s t x h hk hd code noArgs hj hx fault input
  have row : partRow f.code = .axisClear := by rw [code]; rfl
  have delivered := exec_delivered (u := tell [.axisTrip, .axisDrive] (.axis (axisOf f))
      (publishAxis (axisOf f) [0, 1] (setAxis (axisOf f)
        { x with cp := x.fp, fe := 0, cause := none, state := .idle } t))) h hk hd hj (by
    simp only [deliver, row, deliverClear, noArgs, ← hx]
    rw [if_neg (by simp), if_pos ⟨fault, input⟩])
  rwa [row] at delivered

/-! ## AXIS_STOP (R81) -/

section
variable {a : AxisId} {s : State} {c : Current} {o : MoveOutcome} {namer : Option AxisId}
  (hm : (getAxis s a).state = .moving) (hc : (getAxis s a).current = some c)
include hm hc

theorem slowStop_of_fast (fast : c.vs < c.vacc / 1000) :
    slowStop a o namer s = followPhase a .stopping .none (publishMotion a (setAxis a { getAxis s a with
      state := .stopping, phase := .none, stop := some { outcome := o, namer := namer } } s)) := by
  unfold slowStop
  dsimp only
  split
  next d _ hd =>
    obtain rfl := Option.some.inj (hc.symm.trans hd)
    exact if_neg (Nat.not_le.2 fast)
  next other => exact absurd hc (other c hm)

theorem slowStop_of_slow (slow : c.vacc / 1000 ≤ c.vs) :
    slowStop a o namer s = finishMove a o namer .idle s := by
  unfold slowStop
  dsimp only
  split
  next d _ hd =>
    obtain rfl := Option.some.inj (hc.symm.trans hd)
    exact if_pos slow
  next other => exact absurd hc (other c hm)

end

/-- Settles O28: by the state of the axis that the stop acts on. -/
theorem axisStopActsByState : Obligations.AxisStopActsByState := by
  unfold Obligations.AxisStopActsByState
  intro p bytes f s t u b a x h hk hd code args small hj enabled alone coupled hx hu
  have row : partRow f.code = .axisStop := by rw [code]; rfl
  have range : ¬1 < b.toNat := by
    have : b.toNat ≤ 1 := small
    omega
  have taken : deliver f t = (stopAxis (decide (b = 1)) a t, none) := by
    simp only [deliver, row, deliverStop, args, if_neg range, if_neg enabled]
    cases hc : (getAxis t (axisOf f)).coupling with
    | none => rw [alone hc]
    | some k => rw [coupled k hc]
  have delivered := exec_delivered h hk hd hj taken
  rw [row] at delivered
  have channel : getAxis u a = { x with latch := false } := by rw [hu]; exact getAxis_setAxis_same a _ t
  have acts : stopAxis (decide (b = 1)) a t = match x.state with
      | .moving => if decide (b = 1) then quickStop a .stopped none u else slowStop a .stopped none u
      | .stopping => if decide (b = 1) then quickStop a .stopped none u else u
      | .float => publishAxis a [0, 1]
          (setAxis a { x with latch := false, state := .idle, cp := x.fp, fe := 0 } t)
      | .idle => u
      | .fault => u
      | .disabled => u := by
    rw [stopAxis, ← hx, hu] <;> rfl
  rw [acts] at delivered
  have slow (hb : b = 0) : decide (b = 1) = false := by rw [hb]; rfl
  have quick (hb : b = 1) : decide (b = 1) = true := by rw [hb]; rfl
  refine ⟨?_, ?_, ?_, ?_, ?_, ?_⟩
  · rintro (state | state) <;> (rw [state] at delivered; exact delivered)
  · intro state
    rw [state] at delivered
    exact delivered
  · intro c state current hb fast
    rw [state, slow hb] at delivered
    simp only [Bool.false_eq_true, ↓reduceIte] at delivered
    rwa [slowStop_of_fast (by rw [channel]; exact state) (by rw [channel]; exact current) fast,
      channel] at delivered
  · intro c state current halts
    rw [state] at delivered
    by_cases hb : b = 1
    · rw [quick hb, quickStop, channel] at delivered
      simp only [state, ↓reduceIte] at delivered
      exact delivered
    · rw [decide_eq_false hb] at delivered
      simp only [Bool.false_eq_true, ↓reduceIte] at delivered
      rwa [slowStop_of_slow (by rw [channel]; exact state) (by rw [channel]; exact current)
        (halts.resolve_left hb)] at delivered
  · intro state hb
    rw [state, slow hb] at delivered
    exact delivered
  · intro n state stop hb
    rw [state, quick hb, quickStop, channel] at delivered
    simp only [state, stop, ↓reduceIte] at delivered
    exact delivered

/-! ## AXIS_GO (R70 to R73) -/

/-- What stands in the way of a start: the end is here, a follower is in FAULT, or a limit is ahead. -/
theorem startNext_of_clear {a : AxisId} {s : State} {x : Axis} {cfg : AxisCfg} {m : Move} {rest : List Move}
    {c : Current} (n : Nat) (hx : x = getAxis s a) (hcfg : x.cfg = some cfg) (hp : x.pending = m :: rest)
    (latch : x.latch = true) (idle : x.state = .idle)
    (sound : ∀ b ∈ followersOf s a, (getAxis s b).state ≠ .fault) (away : m.dest ≠ x.cp)
    (upper : x.cp < m.dest → x.inputs.upper = false) (lower : m.dest < x.cp → x.inputs.lower = false)
    (hc : c = clampMove cfg.vmax x.cp m) :
    startNext (n + 1) a s = (setAxis a { x with
      pending := rest, current := some c, stop := none, state := .moving, dirUp := c.up
      phase := phaseDecision c (if c.vs = c.vc then .cruise else .accel) } s,
      some (c, phaseDecision c (if c.vs = c.vc then .cruise else .accel))) := by
  have same : x.takeUp = x := if_neg (by rw [idle]; decide)
  have ahead : limitAhead x.inputs c.up = false := by
    rw [hc, limitAhead, clampMove]
    dsimp only
    split_ifs with up
    · exact upper (by simpa using up)
    · exact lower (by simp at up; omega)
  rw [startNext]
  simp only [← hx, same, hcfg, hp]
  rw [if_pos ⟨latch, .inl idle⟩, if_neg away, if_neg (by simpa using sound), ← hc, ahead]
  rfl

/-- The followers of an axis are those its start finds: no configuration changes. -/
theorem followersOf_started {a : AxisId} {x : Axis} {s : State} (hx : x.cfg = (getAxis s a).cfg) :
    followersOf (tellMoving a (publishMotion a (setAxis a x s))) a = followersOf s a :=
  followersOf_congr (fun b => by
    rw [((beside_publishMotion a _).trans (beside_tellMoving a _)).getAxis, getAxis_setAxis]
    by_cases same : b = a
    · rw [if_pos same, same, Axis.coupling, Axis.coupling, hx]
    · rw [if_neg same]) a

/-- R73, R94: the one pending move of an axis in FLOAT that ends at its start. -/
theorem startPending_of_ended {a : AxisId} {s : State} {x : Axis} {m : Move} {o : MoveOutcome} {up : Bool}
    (float : x.state = .float)
    (ended : startNext (Config.pendingCap + 1) a s = startNext Config.pendingCap a
      (endAtStart a m [] o (setAxis a { x.takeUp with dirUp := up } s))) :
    startPending [] a s = publishAxis a [0, 1, 6, 7] (offerReport ⟨false, .axis a m.tag o x.fp⟩
       (setAxis a { x with cp := x.fp, fe := 0, state := .idle, phase := .none, pending := []
                           lastOutcome := some o, dirUp := up } s)) := by
  have taken : x.takeUp = { x with cp := x.fp, fe := 0 } := if_pos float
  have ended_eq : endAtStart a m [] o (setAxis a { x.takeUp with dirUp := up } s) =
      offerReport ⟨false, .axis a m.tag o x.fp⟩ (setAxis a { x with
        cp := x.fp, fe := 0, state := .idle, phase := .none, pending := []
        lastOutcome := some o, dirUp := up } s) := by
    rw [endAtStart, getAxis_setAxis_same, setAxis_setAxis, taken]
    rfl
  rw [ended_eq] at ended
  refine startPending_of_none [] (ended.trans (startNext_of_empty _ ?_))
  rw [(beside_offerReport _ _).getAxis, getAxis_setAxis_same]

/-- Settles O27: the start of a move by what stands in its way. -/
theorem axisGoStartsTheOldestMove : Obligations.AxisGoStartsTheOldestMove := by
  unfold Obligations.AxisGoStartsTheOldestMove
  refine ⟨?_, ?_, ?_, ?_, ?_⟩
  · intro p bytes f s t u x h hk hd code noArgs hj hx enabled sound alone hu
    have row : partRow f.code = .axisGo := by rw [code]; rfl
    have delivered := exec_delivered (u := startPending [] (axisOf f) u) h hk hd hj (by
      simp only [deliver, row, deliverGo, noArgs, ← hx, ← hu]
      rw [if_neg (by simp), if_neg (by simp [enabled, sound]), if_neg (by simp [alone])])
    rw [row] at delivered
    refine ⟨delivered, fun still => ?_⟩
    have channel : getAxis u (axisOf f) = { x with latch := true } := by
      rw [hu]; exact getAxis_setAxis_same _ _ t
    have none : startNext (Config.pendingCap + 1) (axisOf f) u = (u, none) := by
      rcases still with empty | ⟨idle, float⟩
      · exact startNext_of_empty _ (by rw [channel]; exact empty)
      · exact startNext_of_state _ (by rw [channel]; exact idle) (by rw [channel]; exact float)
    rw [startPending_of_none [] none] at delivered
    exact delivered
  · intro a s x cfg m rest c hx hcfg hp latch idle alone away upper lower hc
    have started := startNext_of_clear Config.pendingCap hx hcfg hp latch idle
      (by rw [alone]; exact fun _ h => absurd h List.not_mem_nil) away upper lower (hc.trans rfl)
    rw [startPending_of_some started, followersOf_started (by rw [hx]), alone]
    rfl
  · intro a s x cfg m o hx hcfg hp latch float cases
    have taken : x.takeUp = { x with cp := x.fp, fe := 0 } := if_pos float
    rcases cases with ⟨rfl, here⟩ | ⟨rfl, away, alone, ahead⟩
    · refine ⟨x.dirUp, startPending_of_ended float ?_⟩
      rw [startNext]
      simp only [← hx, taken, hcfg, hp]
      rw [if_pos ⟨latch, .inr float⟩, if_pos here]
    · refine ⟨decide (x.fp < m.dest), startPending_of_ended float ?_⟩
      have limit : limitAhead x.inputs (clampMove cfg.vmax x.fp m).up = true := by
        rw [limitAhead, clampMove]
        dsimp only
        split_ifs with up
        · exact (ahead.resolve_right (fun h => by simp at up; omega)).2
        · exact (ahead.resolve_left (fun h => by simp at up; omega)).2
      rw [startNext]
      simp only [← hx, taken, hcfg, hp]
      rw [if_pos ⟨latch, .inr float⟩, if_neg away, alone, if_neg (by simp), if_pos limit]
      rfl
  · intro a s x cfg m rest c q hx hcfg hp latch idle sound away upper lower hc hq
    have started := startNext_of_clear Config.pendingCap hx hcfg hp latch idle sound away upper lower
      (hc.trans rfl)
    rw [startPending_of_some started, followersOf_started (by rw [hx]), ← hq]
    rfl
  · intro b s x k c q up hx coupled hup
    constructor
    · rintro rest
      simp only [beginRun, ← hx, coupled]
      rw [if_pos rest, ← hup]
      rfl
    · intro idle float
      simp only [beginRun, ← hx, coupled]
      rw [if_neg (by simp [idle, float])]

/-! ## Zone orders (R127 to R132) -/

section
variable {f : Frame} {t : State} {w : Zone} (noArgs : f.args = []) (hw : Tab.get? t.zones f.device = some w)
include noArgs hw

/-- R131: an order without arguments for a valid zone reaches it. -/
theorem zoneOrder_of_valid (act : Zone → State → State × Option SubReason) :
    zoneOrder f.device f.args act t = act w t := by
  rw [zoneOrder, noArgs, if_neg (by simp), hw]

end

theorem modifyZone_of_valid {z : Nat} {w : Zone} {s : State} (hw : Tab.get? s.zones z = some w)
    (g : Zone → Zone) : modifyZone z g s = setZone z (g w) s := by
  rw [modifyZone, hw]

/-- Settles O39. -/
theorem zoneAlertOrderEntersAlert : Obligations.ZoneAlertOrderEntersAlert := by
  unfold Obligations.ZoneAlertOrderEntersAlert
  intro p bytes f s t u w h hk hd code noArgs hj hw
  have row : partRow f.code = .zoneAlert := by rw [code]; rfl
  have delivered {v : State}
      (hv : (if w.state = .normal then enterAlert f.device (.order f.tag f.src) t else t) = v) :
      exec (.zoneAlert p bytes) s = .next (settle (passNote t f p v)) := by
    have := exec_delivered (u := v) h hk hd hj (by
      simp only [deliver, row, deliverAlert, zoneOrder_of_valid noArgs hw, hv])
    rwa [row] at this
  refine ⟨fun normal time hu => delivered ?_, fun normal time => delivered ?_, fun other => delivered ?_⟩
  · rw [if_pos normal, enterAlert, hw]
    dsimp only
    rw [if_neg time, normal, ← hu]
  · rw [if_pos normal, enterAlert, hw]
    dsimp only
    rw [if_pos time]
  · exact if_neg other

/-- A zone that stands with its gate's state shut has its gate shut (R134). -/
theorem gateShut_of_shuts {s : State} {z : Nat} {w : Zone} (hw : Tab.get? s.zones z = some w)
    (shut : w.state.shuts = true) : gateShut s z = true := by
  rw [gateShut, Config.zoneFuel, gateShutIn, hw]
  dsimp only
  rw [shut, Bool.true_or]

/-- Settles O40: no zone nests below and the zone has no program, so the cascade and the walk are
empty. -/
theorem zoneCloseNowEntersClosing : Obligations.ZoneCloseNowEntersClosing := by
  unfold Obligations.ZoneCloseNowEntersClosing
  intro p bytes f s t w h hk hd code noArgs hj hw
  have row : partRow f.code = .zoneCloseNow := by rw [code]; rfl
  have delivered {v : State} (hv : (if w.state = .normal ∨ w.state = .alert then
      enterClosing f.device (.order f.tag f.src) t else t) = v) :
      exec (.zoneCloseNow p bytes) s = .next (settle (passNote t f p v)) := by
    have := exec_delivered (u := v) h hk hd hj (by
      simp only [deliver, row, deliverCloseNow, zoneOrder_of_valid noArgs hw, hv])
    rwa [row] at this
  refine ⟨fun standing => delivered (if_pos standing), fun normal alert => delivered (if_neg (by tauto)), ?_⟩
  intro u v new normal noProgram noneBelow hu hnew hv
  have below : cascadeBelow t Config.zoneFuel [f.device] [f.device] = [] := by
    rw [Config.zoneFuel, cascadeBelow, noneBelow]
    rfl
  have gate : gateShut (setZone f.device { w with state := .closing, timer := 0, wait := .none } t)
      f.device = true :=
    gateShut_of_shuts (w := { w with state := .closing, timer := 0, wait := .none })
      (by rw [setZone_zones, Tab.get?_set_same]) rfl
  have closed : closeOne (.order f.tag f.src) f.device t =
      (v, [{ zone := f.device, prev := .normal, new := .closing, gate := true
             cause := .order f.tag f.src },
           { zone := f.device, prev := .closing, new := new, gate := gateShut v f.device
             cause := .programEnd }]) := by
    unfold closeOne
    rw [hw]
    dsimp only
    rw [if_neg (show ¬w.state = .alert by rw [normal]; decide), modifyZone_of_valid hw, gate, ← hu, noProgram, normal]
    simp only [Option.isSome_none, Bool.false_eq_true, ↓reduceIte, leaveClosing, judgeOwn, ← hnew, ← hv]
  rw [enterClosing, below, closed]
  rfl

theorem parentShut_eq_false {s : State} {w : Zone} (h : ∀ q, w.cfg.parent = some q → gateShut s q = false) :
    parentShut s w = false := by
  unfold parentShut
  cases hp : w.cfg.parent with
  | none => rfl
  | some q => exact h q hp

theorem parentShut_of_shut {s : State} {w : Zone} {q : Nat} (hp : w.cfg.parent = some q)
    (shut : gateShut s q = true) : parentShut s w = true := by
  unfold parentShut
  rw [hp]
  exact shut

/-- Settles O41: by the state of the zone, its trigger evaluated afresh and its parent's gate. -/
theorem zoneCancelAndRelease : Obligations.ZoneCancelAndRelease := by
  unfold Obligations.ZoneCancelAndRelease
  intro p bytes f s t u v w h hk hd noArgs hj hw hu
  have fresh : freshTrigger f.device w t = u := hu.symm
  have cancel (code : f.code = 0x32) : partRow f.code = .zoneCancel := by rw [code]; rfl
  have release (code : f.code = 0x33) : partRow f.code = .zoneRelease := by rw [code]; rfl
  refine ⟨?_, ?_, ?_, ?_, ?_, ?_⟩
  · intro code alert quiet hv
    have delivered := exec_delivered (u := finishChanges
        [{ zone := f.device, prev := .alert, new := .normal, gate := gateShut v f.device
           cause := .order f.tag f.src }] v) h hk hd hj (by
      simp only [deliver, cancel code, deliverCancel, zoneOrder_of_valid noArgs hw, fresh, ← hv]
      rw [if_pos alert, if_neg (by simp [quiet])])
    rwa [cancel code] at delivered
  · intro code closed quiet parent hv
    have delivered := exec_delivered (u := reportZone
        { zone := f.device, prev := w.state, new := .normal, gate := gateShut v f.device
          cause := .order f.tag f.src }
        (endAll (Call.byZone f.device) .withdrawn (publishZones v))) h hk hd hj (by
      simp only [deliver, release code, deliverRelease, zoneOrder_of_valid noArgs hw, fresh, ← hv]
      rw [if_pos closed, if_neg (by simp [quiet, parentShut_eq_false parent])])
    rwa [release code] at delivered
  · rintro r rfl code other
    have refused := exec_undelivered (u := t) (x := .state) h hk hd hj (by
      simp only [deliver, cancel code, deliverCancel, zoneOrder_of_valid noArgs hw, if_neg other])
    rwa [cancel code] at refused
  · rintro r rfl code secured incomplete
    have refused := exec_undelivered (u := t) (x := .state) h hk hd hj (by
      simp only [deliver, release code, deliverRelease, zoneOrder_of_valid noArgs hw]
      rw [if_neg (by simp [secured, incomplete])])
    rwa [release code] at refused
  · rintro r rfl code alert asserted
    have refused := exec_undelivered (u := u) (x := .state) h hk hd hj (by
      simp only [deliver, cancel code, deliverCancel, zoneOrder_of_valid noArgs hw, fresh]
      rw [if_pos alert, if_pos asserted])
    rwa [cancel code] at refused
  · rintro r rfl code closed barred
    have refused := exec_undelivered (u := u) (x := .state) h hk hd hj (by
      simp only [deliver, release code, deliverRelease, zoneOrder_of_valid noArgs hw, fresh]
      rw [if_pos closed, if_pos (barred.imp_right fun ⟨q, hq, shut⟩ => parentShut_of_shut hq shut)])
    rwa [release code] at refused

/-! ## Call orders (R150 to R153, R159) -/

theorem startCall_of_room {n : Nat} {who : Starter} {override : Option ZoneSet} {s : State} {tpl : Template}
    {c : Call} (valid : Tab.get? s.templates n = some tpl) (room : s.calls.length < Config.callCap)
    (hc : c = newCall s n tpl who (override.getD tpl.zones)) :
    startCall n who override s = (recompute (joinCall c s), .started c.number) := by
  rw [startCall, valid]
  dsimp only
  rw [if_pos room, ← hc]

theorem foldl_max_le {l : List Call} {m k : Nat} (hm : m ≤ k) (h : ∀ c ∈ l, c.priority ≤ k) :
    l.foldl (fun m c => max m c.priority) m ≤ k := by
  induction l generalizing m with
  | nil => exact hm
  | cons c l ih =>
    exact ih (max_le hm (h c List.mem_cons_self)) (fun d hd => h d (List.mem_cons_of_mem c hd))

theorem le_foldl_max (l : List Call) (m : Nat) : m ≤ l.foldl (fun m c => max m c.priority) m := by
  induction l generalizing m with
  | nil => exact le_rfl
  | cons c l ih => exact (le_max_left m c.priority).trans (ih _)

/-- R153: the worst priority is that of a call that no call exceeds. -/
theorem worstPriority_of_worst {older newer : List Call} {c : Call}
    (ho : ∀ d ∈ older, d.priority ≤ c.priority) (hn : ∀ d ∈ newer, d.priority ≤ c.priority) :
    worstPriority (older ++ c :: newer) = c.priority := by
  refine le_antisymm (foldl_max_le (Nat.zero_le _) ?_) ?_
  · simp only [List.mem_append, List.mem_cons]
    rintro d (hd | rfl | hd)
    · exact ho d hd
    · exact le_rfl
    · exact hn d hd
  · rw [worstPriority, List.foldl_append, List.foldl_cons]
    exact (le_max_right _ _).trans (le_foldl_max _ _)

theorem displaced_of_emergency {cs : List Call} (h : ∀ c ∈ cs, c.priority = 0) : displaced cs = none :=
  if_pos (Nat.le_zero.1 (foldl_max_le le_rfl (fun c hc => (h c hc).le)))

/-- R153: the call of the worst priority nearest the tail is displaced. -/
theorem displaced_of_worst {older newer : List Call} {c : Call} (hc : c.priority ≠ 0)
    (ho : ∀ d ∈ older, d.priority ≤ c.priority) (hn : ∀ d ∈ newer, d.priority < c.priority) :
    displaced (older ++ c :: newer) = some (c, older ++ newer) := by
  have worst := worstPriority_of_worst ho (fun d hd => (hn d hd).le)
  have mirrored : (older ++ c :: newer).reverse = newer.reverse ++ c :: older.reverse := by simp
  rw [displaced, worst, if_neg hc, mirrored, takeFirst_append _ _ _
    (fun d hd => by simpa using (hn d (List.mem_reverse.1 hd)).ne) (by simp)]
  simp

theorem endFirst_of_split {older newer : List Call} {c : Call} {q : Call → Bool} {s : State} (why : EndReason)
    (hs : s.calls = older ++ c :: newer) (ho : ∀ d ∈ older, q d = false) (hc : q c = true) :
    endFirst q why s = recompute (callReport c (.ended why) 0 { s with calls := older ++ newer }) := by
  rw [endFirst, hs, takeFirst_append older newer c ho hc]

/-- Settles O44. -/
theorem callStartAndCallEnd : Obligations.CallStartAndCallEnd := by
  unfold Obligations.CallStartAndCallEnd
  intro p bytes f s t h hk hd hj
  have start (code : f.code = 0x40) : partRow f.code = .callStart := by rw [code]; rfl
  have ends (code : f.code = 0x41) : partRow f.code = .callEnd := by rw [code]; rfl
  refine ⟨?_, ?_, ?_, ?_, ?_⟩
  · intro tpl base c code valid room args hc
    have delivered := exec_delivered (u := recompute (joinCall c t)) h hk hd hj (by
      simp only [deliver, start code, deliverCallStart]
      rcases args with ⟨none, hb⟩ | ⟨b2, b1, b0, three, hb⟩
      · simp only [none, startCall_of_room (override := Option.none) valid room
          (by rw [hc, hb]; rfl : c = newCall t f.device tpl (.bridge f.tag f.src) _)]
      · simp only [three, startCall_of_room (override := some (b2 ++ b1 ++ b0)) valid room
          (by rw [hc, hb]; rfl : c = newCall t f.device tpl (.bridge f.tag f.src) _)])
    rwa [start code] at delivered
  · intro older c newer code noArgs calls others named
    have delivered := exec_delivered (u := recompute (callReport c (.ended .ended) 0
        { t with calls := older ++ newer })) h hk hd hj (by
      simp only [deliver, ends code, deliverCallEnd, noArgs]
      rw [if_neg (by simp), if_pos (by simp [calls, named]), endFirst_of_split .ended calls
        (by simpa using others) (by simp [named])])
    rwa [ends code] at delivered
  · rintro r rfl code noArgs others
    have refused := exec_undelivered (u := t) (x := .noSuch) h hk hd hj (by
      simp only [deliver, ends code, deliverCallEnd, noArgs]
      rw [if_neg (by simp), if_neg (by simpa using others)])
    rwa [ends code] at refused
  · rintro tpl r rfl code valid full args barred
    have noRoom (override : Option ZoneSet) :
        startCall f.device (.bridge f.tag f.src) override t = (t, .noRoom) := by
      rw [startCall, valid]
      dsimp only
      rw [if_neg (show ¬t.calls.length < Config.callCap from Nat.not_lt.2 full)]
      split_ifs with emergency
      · rw [displaced_of_emergency (barred.resolve_left (not_not.2 emergency))]
      · rfl
    have refused := exec_undelivered (u := t) (x := .queueFull) h hk hd hj (by
      simp only [deliver, start code, deliverCallStart, noRoom]
      rcases args with none | three
      · rw [none]
      · obtain ⟨b2, b1, b0, three⟩ := List.length_eq_three.1 three
        rw [three])
    rwa [start code] at refused
  · intro tpl older c newer u n code valid emergency full noArgs calls lower ho hn hu hnew
    have started : startCall f.device (.bridge f.tag f.src) none t =
        (recompute (joinCall n u), .started n.number) := by
      rw [startCall, valid]
      dsimp only
      rw [if_neg (show ¬t.calls.length < Config.callCap from Nat.not_lt.2 full), if_pos emergency, calls, displaced_of_worst lower ho hn]
      dsimp only
      rw [← hu, Option.getD_none, ← hnew]
    have delivered := exec_delivered (u := recompute (joinCall n u)) h hk hd hj (by
      simp only [deliver, start code, deliverCallStart, noArgs, started])
    rwa [start code] at delivered

end Sys2Proof.Machine

/-! # Proofs: the update of an axis (R65, R74, R88 to R101) -/

namespace Sys2Proof.Machine

open Sys2Proof

/-! ## The stages (R74) -/

theorem motionStage_of_idle {a : AxisId} {s : State} (h : (getAxis s a).state = .idle) :
    motionStage a s = setAxis a { getAxis s a with pulses := 0 } s := by
  unfold motionStage
  dsimp only
  split
  next hm _ => cases h.symm.trans hm
  next hs _ => cases h.symm.trans hs
  next hf => cases h.symm.trans hf
  next => rfl
  next hf => cases h.symm.trans hf
  next other _ _ _ => exact absurd h other

theorem motionStage_of_float {a : AxisId} {s : State} (h : (getAxis s a).state = .float) :
    motionStage a s = setAxis a { getAxis s a with cp := (getAxis s a).fp, pulses := 0 } s := by
  unfold motionStage
  dsimp only
  split
  next hm _ => cases h.symm.trans hm
  next hs _ => cases h.symm.trans hs
  next => rfl
  next hi => cases h.symm.trans hi
  next hf => cases h.symm.trans hf
  next other _ _ _ _ => exact absurd h other

theorem followingError_eq (cp fp : Int) : followingError cp fp =
    if 32767 < cp - fp then 32767 else if cp - fp < -32767 then -32767 else cp - fp := by
  simp only [followingError, Config.feMax]
  split_ifs <;> omega

theorem errorStage_eq (a : AxisId) (s : State) : errorStage a s = setAxis a { getAxis s a with
    fe := if (getAxis s a).state = .float then 0
      else followingError (getAxis s a).cp (getAxis s a).fp } s := rfl

/-! ## The checks (R88) -/

section
variable {a : AxisId} {s : State} {illegal : Bool}

theorem driveCheck_of_sound (input : (getAxis s a).inputs.driveFault = false) (legal : illegal = false) :
    driveCheck a illegal s = s := if_pos ⟨input, legal⟩

section
variable (drive : (getAxis s a).inputs.driveFault = true ∨ illegal = true)
include drive

theorem not_sound : ¬((getAxis s a).inputs.driveFault = false ∧ illegal = false) := by
  rintro ⟨input, legal⟩
  rcases drive with asserted | seen
  · simp [input] at asserted
  · simp [legal] at seen

theorem driveCheck_of_running (enabled : (getAxis s a).state ≠ .disabled)
    (sound : (getAxis s a).state ≠ .fault) : driveCheck a illegal s = enterFault a .drive s := by
  unfold driveCheck
  dsimp only
  rw [if_neg (not_sound drive)]
  split
  next h => exact absurd h enabled
  next h => exact absurd h sound
  next => rfl

theorem driveCheck_of_fault (fault : (getAxis s a).state = .fault) :
    driveCheck a illegal s = if (getAxis s a).cause = some .trip then
        tell [.axisTrip, .axisDrive] (.axis a)
          (reportFault a .drive none (setAxis a { getAxis s a with cause := some .drive } s))
      else s := by
  unfold driveCheck
  dsimp only
  rw [if_neg (not_sound drive)]
  split
  next h => cases fault.symm.trans h
  next => rfl
  next _ h => exact absurd fault h

end

/-- A report of a fault names the counters of the axis as they stand. -/
theorem reportFault_setAxis (cause : FaultCause) (tag : Option Byte) (x : Axis) :
    reportFault a cause tag (setAxis a x s) =
      offerReport ⟨true, .axisFault a cause x.cp x.fp x.fe tag⟩ (setAxis a x s) := by
  rw [reportFault, getAxis_setAxis_same]
  rfl

theorem tripCheck_of_beyond {cfg : AxisCfg} (hc : (getAxis s a).cfg = some cfg)
    (acts : (getAxis s a).state = .idle ∨ (getAxis s a).state = .moving ∨ (getAxis s a).state = .stopping)
    (beyond : cfg.trip < (getAxis s a).fe.natAbs) : tripCheck a s = enterFault a .trip s := by
  rw [tripCheck]
  simp only [hc]
  exact if_pos ⟨acts, beyond⟩

theorem tripCheck_of_within {cfg : AxisCfg} (hc : (getAxis s a).cfg = some cfg)
    (within : (getAxis s a).fe.natAbs ≤ cfg.trip) : tripCheck a s = s := by
  rw [tripCheck]
  simp only [hc]
  exact if_neg (fun h => absurd h.2 (Nat.not_lt.2 within))

theorem tripCheck_of_free (rests : (getAxis s a).state = .float ∨ (getAxis s a).state = .fault) :
    tripCheck a s = s := by
  unfold tripCheck
  dsimp only
  split
  · rfl
  · refine if_neg (fun h => ?_)
    rcases rests with state | state <;> simp [state] at h

theorem limitCheck_of_direction {up : Bool} (hd : (getAxis s a).direction = some up) :
    limitCheck a s = if ((getAxis s a).state = .moving ∨ (getAxis s a).state = .stopping) ∧
        limitAhead (getAxis s a).inputs up = true then
      if (getAxis s a).isFollower then tellLeader a .endLimit s else quickStop a .limit none s
    else s := by
  rw [limitCheck]
  simp only [hd]

theorem limitCheck_of_rest (moving : (getAxis s a).state ≠ .moving) (stopping : (getAxis s a).state ≠ .stopping) :
    limitCheck a s = s := by
  unfold limitCheck
  dsimp only
  split
  · rfl
  · exact if_neg (fun h => h.1.elim moving stopping)

theorem contactCheck_of_noContact (h : (getAxis s a).inputs.contact = false ∨
    ∀ c, (getAxis s a).current = some c → c.move.land = false) : contactCheck a s = s := by
  unfold contactCheck
  dsimp only
  split
  · rfl
  next c hc =>
    refine if_neg (fun ⟨land, contact⟩ => ?_)
    rcases h with open_ | moves
    · simp [open_] at contact
    · simp [moves c hc] at land

section
variable {c : Current} (hc : (getAxis s a).current = some c) (land : c.move.land = true)
  (contact : (getAxis s a).inputs.contact = true)
include hc land contact

theorem contactCheck_of_moving (moving : (getAxis s a).state = .moving) :
    contactCheck a s = if (getAxis s a).phase = .creep then finishMove a .landed none .float (takeLatch a s)
      else quickStop a .earlyContact none s := by
  rw [contactCheck]
  simp only [hc, moving]
  rw [if_pos ⟨land, contact⟩]

theorem contactCheck_of_stopping {n : NamedStop} (stopping : (getAxis s a).state = .stopping)
    (stop : (getAxis s a).stop = some n) :
    contactCheck a s = finishMove a n.outcome n.namer .float (takeLatch a s) := by
  rw [contactCheck]
  simp only [hc, stopping, stop]
  rw [if_pos ⟨land, contact⟩]

end

end

/-! ## The comparators (R90, R91) -/

theorem Comparator.holds_iff (c : Comparator) (y x : Axis) : c.holds y x = true ↔
    c.cond.holdsInt (sourceValue c.source y) c.value = true ∧
    (c.qualifier = .up → x.direction = some true) ∧ (c.qualifier = .down → x.direction = some false) := by
  rw [Comparator.holds, Bool.and_eq_true]
  refine and_congr_right (fun _ => ?_)
  cases c.qualifier <;> simp

theorem compare_of_cfg {a : AxisId} {s : State} {cfg : AxisCfg} (y : Axis) (k : Fin 4)
    (hc : (getAxis s a).cfg = some cfg) : compare a y k s =
      if cfg.comps[k].holds y (getAxis s a) = true ∧ (getAxis s a).prev[k] = false then
        fire a k cfg.comps[k] y (setAxis a { getAxis s a with
          prev := (getAxis s a).prev.set k.val (cfg.comps[k].holds y (getAxis s a)) k.isLt } s)
      else setAxis a { getAxis s a with
          prev := (getAxis s a).prev.set k.val (cfg.comps[k].holds y (getAxis s a)) k.isLt } s := by
  unfold compare
  dsimp only
  split
  next h => cases hc.symm.trans h
  next d h =>
    obtain rfl := Option.some.inj (hc.symm.trans h)
    rfl

/-- Settles O31: stage by stage, then check by check. -/
theorem axisUpdateRunsItsStages : Obligations.AxisUpdateRunsItsStages := by
  unfold Obligations.AxisUpdateRunsItsStages
  intro a i s t u y illegal inputs ht hu
  have channel : getAxis t a = y := by rw [ht]; exact getAxis_setAxis_same a y s
  have update : exec (.axisUpdate a i) s = .next (settle (updateAxis a i s)) := rfl
  have stages : updateAxis a i s = if y.state = .disabled then
      publishAxis a [4] (modifyAxis a (fun x => { x with pulses := 0 }) t)
    else publishAxis a [4] (comparatorCheck a (getAxis u a) (contactCheck a (limitCheck a
      (tripCheck a (driveCheck a illegal u))))) := by
    rw [updateAxis, inputs, hu, ht]
  rw [update, stages]
  refine ⟨fun disabled => ?_, fun enabled => ?_, fun idle => ?_, fun float => ?_, ?_⟩
  · rw [if_pos disabled, modifyAxis, channel]
  · rw [if_neg enabled]
    rfl
  · rw [hu, motionStage_of_idle (by rw [channel]; exact idle), channel, errorStage_eq,
      getAxis_setAxis_same, setAxis_setAxis, ht, setAxis_setAxis, if_neg (by simp [idle])]
  · rw [hu, motionStage_of_float (by rw [channel]; exact float), channel, errorStage_eq,
      getAxis_setAxis_same, setAxis_setAxis, ht, setAxis_setAxis, if_pos (by simp [float])]
  rintro v x ill rfl
  refine ⟨driveCheck_of_sound, fun drive => ⟨driveCheck_of_running drive, ?_, ?_⟩, ?_,
    fun o => ⟨rfl, rfl⟩, fun cfg hc => ⟨tripCheck_of_beyond hc, tripCheck_of_within hc, tripCheck_of_free⟩,
    ?_, ?_, limitCheck_of_rest, ?_, contactCheck_of_noContact, ?_⟩
  · intro fault trip
    rw [driveCheck_of_fault drive fault, if_pos trip, reportFault_setAxis]
  · intro fault other
    rw [driveCheck_of_fault drive fault, if_neg other]
  · rw [errorStage_eq, followingError_eq]
  · intro up direction moves ahead
    rw [limitCheck_of_direction direction, if_pos ⟨moves, ahead⟩]
    refine ⟨fun alone => if_neg (by simp [Axis.isFollower, alone]), fun coupled => if_pos ?_⟩
    simpa [Axis.isFollower, Option.isSome_iff_ne_none] using coupled
  · intro up direction clear
    rw [limitCheck_of_direction direction, if_neg (fun h => absurd (h.2.symm.trans clear) (by decide))]
  · intro c current land contact
    refine ⟨fun moving creep => ?_, fun moving phase => ?_, fun n stopping stop => ?_⟩
    · rw [contactCheck_of_moving current land contact moving, if_pos creep]
      rfl
    · rw [contactCheck_of_moving current land contact moving, if_neg phase]
    · rw [contactCheck_of_stopping current land contact stopping stop]
      rfl
  · intro cfg k e src now w hc hsrc hnow hw
    have value : src = sourceValue cfg.comps[k].source e := hsrc
    have result : now = cfg.comps[k].holds e (getAxis v a) := by
      rw [Bool.eq_iff_iff, hnow, Comparator.holds_iff, value]
    rw [compare_of_cfg e k hc, ← result, ← hw]
    exact ⟨fun holds before => if_pos ⟨holds, before⟩, fun h => if_neg (fun ⟨holds, before⟩ =>
      h.elim (fun no => by simp [no] at holds) (fun yes => by simp [yes] at before))⟩

end Sys2Proof.Machine

/-! # Proofs: what the events of other axes leave, entry into FAULT and into SAFE (R82, R83, R97, R176) -/

namespace Sys2Proof.Machine

open Sys2Proof

/-! ## Axes out of the reach of another -/

/-- No leader acts on the axis: it is no follower, or it is in no coupled run and can begin none. -/
def Axis.Sheltered (x : Axis) : Prop :=
  x.coupling = none ∨ (x.run = none ∧ x.state ≠ .idle ∧ x.state ≠ .float)

/-- What the events of other axes do to axis `a`: nothing, if it is sheltered. -/
def Spares (a : AxisId) (s t : State) : Prop :=
  (getAxis s a).Sheltered → getAxis t a = getAxis s a

section
variable {a b : AxisId} {s t u : State}

theorem Spares.refl (a : AxisId) (s : State) : Spares a s s := fun _ => rfl

theorem Spares.trans (h : Spares a s t) (g : Spares a t u) : Spares a s u := fun sheltered => by
  have first := h sheltered
  exact (g (by rwa [first])).trans first

theorem Beside.spares (h : Beside s t) (a : AxisId) : Spares a s t := fun _ => h.getAxis a

theorem Spares.foldl {α : Type} {f : State → α → State} (l : List α)
    (h : ∀ t, ∀ x ∈ l, Spares a t (f t x)) (s : State) : Spares a s (l.foldl f s) := by
  induction l generalizing s with
  | nil => exact .refl a s
  | cons x l ih =>
    exact (h s x List.mem_cons_self).trans (ih (fun t y hy => h t y (List.mem_cons_of_mem x hy)) (f s x))

theorem mem_runningFollowers : b ∈ runningFollowers s a ↔
    (∃ k, (getAxis s b).coupling = some k ∧ k.leader = a) ∧ (getAxis s b).run.isSome = true := by
  rw [runningFollowers, List.mem_filter, followersOf, List.mem_filter]
  refine and_congr_left (fun _ => ?_)
  cases (getAxis s b).coupling <;> simp [mem_allAxes]

theorem Axis.Sheltered.not_running (h : (getAxis s a).Sheltered) : a ∉ runningFollowers s b := by
  rw [mem_runningFollowers]
  rintro ⟨⟨k, coupled, -⟩, run⟩
  rcases h with alone | ⟨idle, -⟩
  · rw [alone] at coupled; cases coupled
  · rw [idle] at run; cases run

/-- The running followers of another axis do not reach a sheltered one. -/
theorem Spares.foldl_running {f : State → AxisId → State} (h : ∀ t, ∀ c, c ≠ a → Spares a t (f t c))
    (v t : State) (hv : getAxis v a = getAxis t a) : Spares a t ((runningFollowers v b).foldl f t) :=
  fun sheltered => Spares.foldl _ (fun u c hc => h u c (fun same => by
    subst same
    exact Axis.Sheltered.not_running (hv ▸ sheltered) hc)) t sheltered

theorem spares_setAxis (hb : b ≠ a) (x : Axis) : Spares a s (setAxis b x s) :=
  fun _ => getAxis_setAxis_other b a x s hb.symm

theorem spares_endRun (hb : b ≠ a) (o : MoveOutcome) (rest : AxisState) : Spares a s (endRun b o rest s) := by
  unfold endRun
  dsimp only
  split
  · exact .refl a s
  · exact (spares_setAxis hb _).trans ((beside_reportMove _ _ _ _ _).spares a)

theorem spares_beginRun (c : Current) (q : Phase) (b : AxisId) : Spares a s (beginRun c q b s) := by
  intro sheltered
  by_cases same : b = a
  · subst same
    unfold beginRun
    dsimp only
    split
    · rfl
    next k coupled =>
      obtain ⟨-, idle, float⟩ := sheltered.resolve_left (by rw [coupled]; exact Option.some_ne_none k)
      rw [if_neg (fun h => h.elim idle float)]
  · unfold beginRun
    dsimp only
    split
    · rfl
    · split
      · exact ((spares_setAxis same _).trans (((beside_publishMotion b _).trans
          (beside_tellMoving b _)).spares a)) sheltered
      · rfl

theorem spares_endAtStart (hb : b ≠ a) (m : Move) (rest : List Move) (o : MoveOutcome) :
    Spares a s (endAtStart b m rest o s) :=
  (spares_setAxis hb _).trans ((beside_reportMove _ _ _ _ _).spares a)

theorem spares_startNext (hb : b ≠ a) (n : Nat) (s : State) : Spares a s (startNext n b s).1 := by
  induction n generalizing s with
  | zero => exact .refl a s
  | succ n ih =>
    unfold startNext
    dsimp only
    split
    · have ended (x : Axis) (m : Move) (rest : List Move) (o : MoveOutcome) :
          Spares a s (startNext n b (endAtStart b m rest o (setAxis b x s))).1 :=
        (spares_setAxis hb x).trans ((spares_endAtStart hb m rest o).trans (ih _))
      split
      · split
        · exact ended _ _ _ _
        · split
          · exact ended _ _ _ _
          · split
            · exact ended _ _ _ _
            · exact spares_setAxis hb _
      · exact .refl a s
    · exact .refl a s

theorem spares_startPending (hb : b ≠ a) (moving : List AxisId) : Spares a s (startPending moving b s) := by
  unfold startPending
  have started := (spares_startNext (a := a) hb (Config.pendingCap + 1) s).trans
    ((beside_publishMotion b _).spares a)
  dsimp only
  split
  · exact started
  · split_ifs
    · exact started.trans (Spares.foldl _ (fun _ c _ => spares_beginRun _ _ c) _)
    · exact (started.trans ((beside_tellMoving b _).spares a)).trans
        (Spares.foldl _ (fun _ c _ => spares_beginRun _ _ c) _)

theorem spares_finishMove (hb : b ≠ a) (o : MoveOutcome) (namer : Option AxisId) (rest : AxisState) :
    Spares a s (finishMove b o namer rest s) := by
  unfold finishMove
  dsimp only
  split
  · exact .refl a s
  next c _ =>
    have rested : Spares a s (reportMove b c.move.tag o (getAxis s b).cp
        (setAxis b ((getAxis s b).rested o rest) s)) :=
      (spares_setAxis hb _).trans ((beside_reportMove _ _ _ _ _).spares a)
    have ended : Spares a s ((runningFollowers s b).foldl (fun t d => endRun d (runOutcome o namer rest d).1
        (runOutcome o namer rest d).2 t) (reportMove b c.move.tag o (getAxis s b).cp
        (setAxis b ((getAxis s b).rested o rest) s))) := fun sheltered =>
      rested.trans (Spares.foldl_running (fun _ d hd => spares_endRun hd _ _) s _ (rested sheltered).symm)
        sheltered
    exact ((ended.trans (spares_startPending hb _)).trans
      ((Beside.foldl (fun t d => beside_publishMotion d t) _ _).spares a)).trans
      ((Beside.foldl (fun t d => beside_tellIfAtRest d t) _ _).spares a)

theorem spares_followPhase (st : AxisState) (q : Phase) : Spares a s (followPhase b st q s) :=
  Spares.foldl_running (fun _ _ hc => (spares_setAxis hc _).trans ((beside_publishAxis _ _ _).spares a)) s s rfl

theorem spares_slowStop (hb : b ≠ a) (o : MoveOutcome) (namer : Option AxisId) :
    Spares a s (slowStop b o namer s) := by
  unfold slowStop
  dsimp only
  split
  · split_ifs
    · exact spares_finishMove hb _ _ _
    · exact ((spares_setAxis hb _).trans ((beside_publishMotion b _).spares a)).trans (spares_followPhase _ _)
  · exact .refl a s

theorem spares_flushPending (hb : b ≠ a) : Spares a s (flushPending b s) := by
  unfold flushPending
  dsimp only
  split_ifs
  · exact .refl a s
  · exact (spares_setAxis hb _).trans ((Beside.foldl (fun t _ => beside_reportMove _ _ _ _ t) _ _).spares a)

/-- R82: an announcement to one axis does not reach a sheltered other. -/
theorem spares_announceAxis (hb : b ≠ a) (o : MoveOutcome) : Spares a s (announceAxis o b s) := by
  unfold announceAxis
  dsimp only
  split_ifs
  · exact .refl a s
  · exact spares_setAxis hb _
  · exact ((spares_setAxis hb _).trans (spares_flushPending hb)).trans
      ((spares_slowStop hb _ _).trans ((beside_publishMotion b _).spares a))
  · exact (spares_setAxis hb _).trans ((spares_slowStop hb _ _).trans ((beside_publishMotion b _).spares a))

end

/-! ## An axis in FAULT (R97) -/

/-- An axis as it stands in FAULT. -/
structure Axis.Faulted (x : Axis) : Prop where
  state : x.state = .fault
  current : x.current = none
  run : x.run = none
  pending : x.pending = []
  latch : x.latch = false

theorem Axis.Faulted.sheltered {x : Axis} (h : x.Faulted) : x.Sheltered :=
  .inr ⟨h.run, by rw [h.state]; decide, by rw [h.state]; decide⟩

/-- An axis in FAULT stays as it is. -/
def KeepsFaulted (a : AxisId) (s t : State) : Prop :=
  (getAxis s a).Faulted → getAxis t a = getAxis s a

section
variable {a : AxisId} {s t u : State}

theorem KeepsFaulted.trans (h : KeepsFaulted a s t) (g : KeepsFaulted a t u) : KeepsFaulted a s u :=
  fun faulted => by
    have first := h faulted
    exact (g (by rwa [first])).trans first

theorem Beside.keepsFaulted (h : Beside s t) (a : AxisId) : KeepsFaulted a s t := fun _ => h.getAxis a

theorem Spares.keepsFaulted (h : Spares a s t) : KeepsFaulted a s t := fun faulted => h faulted.sheltered

theorem KeepsFaulted.foldl {α : Type} {f : State → α → State} (h : ∀ t x, KeepsFaulted a t (f t x))
    (l : List α) (s : State) : KeepsFaulted a s (l.foldl f s) := by
  induction l generalizing s with
  | nil => exact fun _ => rfl
  | cons x l ih => exact (h s x).trans (ih (f s x))

theorem slowStop_of_not_moving {o : MoveOutcome} {namer : Option AxisId}
    (h : (getAxis s a).state ≠ .moving) : slowStop a o namer s = s := by
  unfold slowStop
  dsimp only
  split
  next moving _ => exact absurd moving h
  next => rfl

theorem keepsFaulted_announceAxis (o : MoveOutcome) (b : AxisId) : KeepsFaulted a s (announceAxis o b s) := by
  by_cases same : b = a
  · subst same
    intro faulted
    have cleared : { getAxis s b with latch := false } = getAxis s b := by rw [← faulted.latch]
    have channel : getAxis (setAxis b { getAxis s b with latch := false } s) b = getAxis s b := by
      rw [getAxis_setAxis_same, cleared]
    have unflushed : flushPending b (setAxis b { getAxis s b with latch := false } s) =
        setAxis b { getAxis s b with latch := false } s := by
      rw [flushPending, channel, faulted.pending]
      rfl
    unfold announceAxis
    dsimp only
    rw [unflushed, ite_self, slowStop_of_not_moving (by rw [channel, faulted.state]; decide)]
    split_ifs
    · rfl
    · exact channel
    · exact ((beside_publishMotion b _).getAxis b).trans channel
  · exact (spares_announceAxis same o).keepsFaulted

theorem keepsFaulted_enterSafe (cause : ModeCause) : KeepsFaulted a s (enterSafe cause s) := by
  refine KeepsFaulted.trans (t := tellSafe { s with mode := .safe }) ?_ ((beside_announceMode _ _ _ _).keepsFaulted a)
  have told : KeepsFaulted a { s with mode := .safe } (tellSafe { s with mode := .safe }) :=
    ((beside_refuseHeld .mode _).keepsFaulted a).trans
      (KeepsFaulted.foldl (fun _ b => keepsFaulted_announceAxis _ b) _ _)
  exact told

theorem keepsFaulted_classesChanged (cs : List FaultClass) (who : Contributor) :
    KeepsFaulted a s (classesChanged cs who s) := by
  unfold classesChanged
  dsimp only
  split_ifs
  · exact fun _ => rfl
  · refine (((beside_writePoints _ s).trans (Beside.foldl (fun t c => beside_alarm _ t) cs _)).keepsFaulted
      a).trans (KeepsFaulted.foldl (fun t c => ?_) cs _)
    split_ifs
    · exact keepsFaulted_enterSafe _
    · exact fun _ => rfl

theorem getAxis_foldl_recount (cs : List FaultClass) (s : State) (a : AxisId) :
    getAxis (cs.foldl (fun t c => recount c t) s) a = getAxis s a := by
  induction cs generalizing s with
  | nil => rfl
  | cons c cs ih => exact ih (recount c s)

theorem keepsFaulted_tell (cs : List FaultClass) (who : Contributor) : KeepsFaulted a s (tell cs who s) := by
  unfold tell
  split_ifs
  · exact fun _ => rfl
  · exact KeepsFaulted.trans (fun _ => getAxis_foldl_recount cs s a) (keepsFaulted_classesChanged _ _)

/-- An axis in FAULT is in no coupled run, so it is no follower whose run ends. -/
theorem keepsFaulted_endRunsOf (b : AxisId) : KeepsFaulted a s (endRunsOf b s) :=
  (Spares.foldl_running (fun _ _ hc => (spares_endRun hc _ _).trans
    (((beside_publishMotion _ _).trans (beside_tellIfAtRest _ _)).spares a)) s s rfl).keepsFaulted

end

theorem beside_reportFault (a : AxisId) (cause : FaultCause) (tag : Option Byte) (s : State) :
    Beside s (reportFault a cause tag s) := beside_alarm _ s

/-- The channel of an axis right after R97 step 1. -/
def Axis.faulted (cause : FaultCause) (x : Axis) : Axis :=
  { x with current := none, run := none, stop := none, pending := [], latch := false, state := .fault
           phase := .none, cause := some cause
           lastOutcome := if x.tags.isEmpty then x.lastOutcome else some .flushed }

/-- R97 steps 2 to 5: the reports, the points and the telling of an entry into FAULT. -/
def faultTold (a : AxisId) (cause : FaultCause) (x : Axis) (s : State) : State :=
  tell [cause.cls] (.axis a) (reportFault a cause x.currentTag (publishMotion a
    (x.tags.foldl (fun t g => reportMove a g .flushed x.cp t) s)))

theorem enterFault_eq (a : AxisId) (cause : FaultCause) (s : State) :
    enterFault a cause s = endRunsOf a (tellLeader a .followerFault
      (if (getAxis s a).state = .moving ∨ (getAxis s a).state = .stopping then
        tellAtRest a (faultTold a cause (getAxis s a) (setAxis a ((getAxis s a).faulted cause) s))
      else faultTold a cause (getAxis s a) (setAxis a ((getAxis s a).faulted cause) s))) := rfl

theorem keepsFaulted_faultTold (a : AxisId) (cause : FaultCause) (x : Axis) (s : State) :
    KeepsFaulted a s (faultTold a cause x s) :=
  ((((Beside.foldl (fun t g => beside_reportMove a g .flushed x.cp t) x.tags s).trans
    (beside_publishMotion a _)).trans (beside_reportFault a cause x.currentTag _)).keepsFaulted a).trans
    (keepsFaulted_tell [cause.cls] (.axis a))

theorem getAxis_enterFault (a : AxisId) (cause : FaultCause) (s : State) :
    getAxis (enterFault a cause s) a = (getAxis s a).faulted cause := by
  have emptied : getAxis (setAxis a ((getAxis s a).faulted cause) s) a = (getAxis s a).faulted cause :=
    getAxis_setAxis_same a _ s
  have told := keepsFaulted_faultTold a cause (getAxis s a) (setAxis a ((getAxis s a).faulted cause) s)
  rw [enterFault_eq]
  generalize setAxis a ((getAxis s a).faulted cause) s = t at *
  have faulted : (getAxis t a).Faulted := by
    rw [emptied]
    exact ⟨rfl, rfl, rfl, rfl, rfl⟩
  refine Eq.trans (KeepsFaulted.trans (told.trans ?_) (((beside_tellLeader a .followerFault _).keepsFaulted
    a).trans (keepsFaulted_endRunsOf a)) faulted) emptied
  split_ifs
  · exact (beside_tellAtRest a _).keepsFaulted a
  · exact fun _ => rfl

/-- Settles O33: the channel is emptied at once, and nothing that follows changes an axis in FAULT. -/
theorem faultEntryEmptiesTheAxis : Obligations.FaultEntryEmptiesTheAxis := by
  unfold Obligations.FaultEntryEmptiesTheAxis
  rintro a cause s x rfl
  rw [getAxis_enterFault]
  exact ⟨rfl, rfl, rfl, rfl, rfl, rfl, rfl, rfl, rfl, rfl, rfl⟩

/-! ## Run latches (R82) -/

/-- No latch is set, no axis becomes DISABLED and the mode stands. -/
structure Calms (s t : State) : Prop where
  latch : ∀ b, (getAxis s b).latch = false → (getAxis t b).latch = false
  enabled : ∀ b, (getAxis s b).state ≠ .disabled → (getAxis t b).state ≠ .disabled
  mode : t.mode = s.mode

section
variable {a b : AxisId} {s t u : State}

theorem Calms.refl (s : State) : Calms s s := ⟨fun _ => id, fun _ => id, rfl⟩

theorem Calms.trans (h : Calms s t) (g : Calms t u) : Calms s u :=
  ⟨fun b l => g.latch b (h.latch b l), fun b d => g.enabled b (h.enabled b d), g.mode.trans h.mode⟩

theorem Beside.calms (h : Beside s t) : Calms s t :=
  ⟨fun b => by rw [h.getAxis b]; exact id, fun b => by rw [h.getAxis b]; exact id, h.mode⟩

theorem Calms.foldl {α : Type} {f : State → α → State} (h : ∀ t x, Calms t (f t x)) (l : List α) (s : State) :
    Calms s (l.foldl f s) := by
  induction l generalizing s with
  | nil => exact .refl s
  | cons x l ih => exact (h s x).trans (ih (f s x))

theorem calms_setAxis {x : Axis} (latch : (getAxis s a).latch = false → x.latch = false)
    (enabled : (getAxis s a).state ≠ .disabled → x.state ≠ .disabled) : Calms s (setAxis a x s) := by
  refine ⟨fun b => ?_, fun b => ?_, rfl⟩ <;> rw [getAxis_setAxis] <;> by_cases same : b = a
  · rw [if_pos same, same]
    exact latch
  · rw [if_neg same]
    exact id
  · rw [if_pos same, same]
    exact enabled
  · rw [if_neg same]
    exact id

theorem calms_endRun (o : MoveOutcome) {rest : AxisState} (hr : rest ≠ .disabled) :
    Calms s (endRun b o rest s) := by
  unfold endRun
  dsimp only
  split
  · exact .refl s
  · exact (calms_setAxis (x := (getAxis s b).rested o rest) id (fun _ => hr)).trans (beside_reportMove _ _ _ _ _).calms

theorem runOutcome_enabled (o : MoveOutcome) (namer : Option AxisId) {rest : AxisState} (b : AxisId) :
    (runOutcome o namer rest b).2 ≠ .disabled := by
  unfold runOutcome
  split
  · simp
  · cases o with
    | limit | comparator => dsimp only; split <;> simp
    | _ => simp

theorem startPending_calms (moving : List AxisId) (latch : (getAxis s a).latch = false) :
    Beside s (startPending moving a s) := by
  rw [startPending_of_none moving (startNext_of_latch _ latch)]
  exact beside_publishMotion a s

/-- The move of an axis whose latch is clear ends, and no other begins. -/
theorem finishMove_calms (o : MoveOutcome) (namer : Option AxisId) {rest : AxisState}
    (hr : rest ≠ .disabled) (latch : (getAxis s a).latch = false) : Calms s (finishMove a o namer rest s) := by
  unfold finishMove
  dsimp only
  split
  · exact .refl s
  next c _ =>
    have rested : Calms s (reportMove a c.move.tag o (getAxis s a).cp
        (setAxis a ((getAxis s a).rested o rest) s)) :=
      (calms_setAxis (x := (getAxis s a).rested o rest) id (fun _ => hr)).trans (beside_reportMove _ _ _ _ _).calms
    have ended := rested.trans (Calms.foldl (fun t d => calms_endRun (b := d) (runOutcome o namer rest d).1
      (runOutcome_enabled o namer (rest := rest) d)) (runningFollowers s a) _)
    exact ((ended.trans (startPending_calms _ (ended.latch a latch)).calms).trans
      (Beside.foldl (fun t d => beside_publishMotion d t) _ _).calms).trans
      (Beside.foldl (fun t d => beside_tellIfAtRest d t) _ _).calms

theorem followPhase_calms {st : AxisState} (hs : st ≠ .disabled) (q : Phase) : Calms s (followPhase a st q s) :=
  Calms.foldl (fun t d => Calms.trans (t := modifyAxis d (fun y => { y with state := st, phase := q }) t)
    (calms_setAxis id (fun _ => hs)) (beside_publishAxis d [0, 1] _).calms) _ _

theorem slowStop_calms (o : MoveOutcome) (namer : Option AxisId) (latch : (getAxis s a).latch = false) :
    Calms s (slowStop a o namer s) := by
  unfold slowStop
  dsimp only
  split
  · split
    · exact finishMove_calms _ _ (by decide) latch
    · exact ((calms_setAxis (x := { getAxis s a with
        state := .stopping, phase := .none, stop := some { outcome := o, namer := namer } }) id
        (fun _ h => by cases h)).trans (beside_publishMotion a _).calms).trans
        (followPhase_calms (by decide) .none)
  · exact .refl s

theorem flushPending_calms : Calms s (flushPending a s) := by
  unfold flushPending
  dsimp only
  split
  · exact .refl s
  · exact (calms_setAxis (x := { getAxis s a with pending := [], lastOutcome := some .flushed }) id id).trans
      (Beside.foldl (fun t (m : Move) => beside_reportMove a m.tag .flushed (getAxis s a).cp t) _ _).calms

theorem announceAxis_calms (o : MoveOutcome) : Calms s (announceAxis o a s) ∧
    ((getAxis s a).state ≠ .disabled → (getAxis (announceAxis o a s) a).latch = false) := by
  unfold announceAxis
  dsimp only
  have cleared : Calms s (setAxis a { getAxis s a with latch := false } s) := calms_setAxis (fun _ => rfl) id
  have latch : (getAxis (setAxis a { getAxis s a with latch := false } s) a).latch = false := by
    rw [getAxis_setAxis_same]
  generalize setAxis a { getAxis s a with latch := false } s = t at *
  have stops {v : State} (h : Calms t v) : Calms t (publishMotion a (slowStop a o none v)) :=
    (h.trans (slowStop_calms o none (h.latch a latch))).trans (beside_publishMotion a _).calms
  have rest : Calms t (publishMotion a (slowStop a o none
      (if (getAxis s a).flushes then flushPending a t else t))) := by
    split
    · exact stops flushPending_calms
    · exact stops (.refl t)
  split
  next disabled => exact ⟨.refl s, fun enabled => absurd disabled enabled⟩
  next =>
    split
    · exact ⟨cleared, fun _ => latch⟩
    · exact ⟨cleared.trans rest, fun _ => rest.latch a latch⟩

theorem announced_calms (o : MoveOutcome) (l : List AxisId) : ∀ s : State,
    Calms s (l.foldl (fun t b => announceAxis o b t) s) ∧
    ∀ b ∈ l, (getAxis s b).state ≠ .disabled →
      (getAxis (l.foldl (fun t b => announceAxis o b t) s) b).latch = false := by
  induction l with
  | nil => exact fun s => ⟨.refl s, fun b hb => absurd hb List.not_mem_nil⟩
  | cons c l ih =>
    intro s
    obtain ⟨first, clears⟩ := announceAxis_calms (a := c) (s := s) o
    obtain ⟨later, others⟩ := ih (announceAxis o c s)
    refine ⟨first.trans later, fun b hb enabled => ?_⟩
    rcases List.mem_cons.1 hb with rfl | hb
    · exact later.latch b (clears enabled)
    · exact others b hb (first.enabled b enabled)

end

/-! ## What an announcement leaves of an axis that is no follower (R79, R82, R83) -/

section
variable {a : AxisId} {s : State}

/-- An axis is none of its own followers if it follows none. -/
theorem not_running_of_alone (alone : (getAxis s a).coupling = none) (b : AxisId) :
    a ∉ runningFollowers s b := Axis.Sheltered.not_running (.inl alone)

theorem getAxis_finishMove {c : Current} {o : MoveOutcome} {namer : Option AxisId} {rest : AxisState}
    (hc : (getAxis s a).current = some c) (latch : (getAxis s a).latch = false)
    (alone : (getAxis s a).coupling = none) :
    getAxis (finishMove a o namer rest s) a = (getAxis s a).rested o rest := by
  unfold finishMove
  simp only [hc]
  have rested : getAxis (reportMove a c.move.tag o (getAxis s a).cp
      (setAxis a ((getAxis s a).rested o rest) s)) a = (getAxis s a).rested o rest :=
    ((beside_reportMove _ _ _ _ _).getAxis a).trans (getAxis_setAxis_same a _ s)
  generalize reportMove a c.move.tag o (getAxis s a).cp (setAxis a ((getAxis s a).rested o rest) s) = t at *
  have ended : getAxis ((runningFollowers s a).foldl (fun t d => endRun d (runOutcome o namer rest d).1
      (runOutcome o namer rest d).2 t) t) a = (getAxis s a).rested o rest := by
    refine Eq.trans (Spares.foldl (runningFollowers s a) (fun u d hd => spares_endRun (fun same => ?_) _ _) t
      (.inl ?_)) rested
    · exact not_running_of_alone alone a (same ▸ hd)
    · rw [rested]
      exact alone
  have still : (getAxis ((runningFollowers s a).foldl (fun t d => endRun d (runOutcome o namer rest d).1
      (runOutcome o namer rest d).2 t) t) a).latch = false := by
    rw [ended]
    exact latch
  refine Eq.trans ?_ ended
  exact (((startPending_calms _ still).trans (Beside.foldl (fun t d => beside_publishMotion d t) _ _)).trans
    (Beside.foldl (fun t d => beside_tellIfAtRest d t) _ _)).getAxis a

theorem getAxis_slowStop_of_slow {c : Current} {o : MoveOutcome} {namer : Option AxisId}
    (hm : (getAxis s a).state = .moving) (hc : (getAxis s a).current = some c)
    (slow : c.vacc / 1000 ≤ c.vs) (latch : (getAxis s a).latch = false)
    (alone : (getAxis s a).coupling = none) :
    getAxis (slowStop a o namer s) a = (getAxis s a).rested o .idle := by
  rw [slowStop_of_slow hm hc slow, getAxis_finishMove hc latch alone]

theorem getAxis_slowStop_of_fast {c : Current} {o : MoveOutcome} {namer : Option AxisId}
    (hm : (getAxis s a).state = .moving) (hc : (getAxis s a).current = some c)
    (fast : c.vs < c.vacc / 1000) (alone : (getAxis s a).coupling = none) :
    getAxis (slowStop a o namer s) a = { getAxis s a with
      state := .stopping, phase := .none, stop := some { outcome := o, namer := namer } } := by
  rw [slowStop_of_fast hm hc fast]
  have stopping : getAxis (publishMotion a (setAxis a { getAxis s a with
      state := .stopping, phase := .none, stop := some { outcome := o, namer := namer } } s)) a =
      { getAxis s a with
        state := .stopping, phase := .none, stop := some { outcome := o, namer := namer } } :=
    ((beside_publishMotion a _).getAxis a).trans (getAxis_setAxis_same a _ s)
  refine (spares_followPhase _ _ (.inl ?_)).trans stopping
  rw [stopping]
  exact alone

theorem getAxis_flushPending (a : AxisId) (s : State) : getAxis (flushPending a s) a =
    if (getAxis s a).pending.isEmpty then getAxis s a
    else { getAxis s a with pending := [], lastOutcome := some .flushed } := by
  unfold flushPending
  dsimp only
  split
  · rfl
  · exact ((Beside.foldl (fun t _ => beside_reportMove _ _ _ _ t) _ _).getAxis a).trans
      (getAxis_setAxis_same a _ s)

/-- R83: the channel an announcement finds once the latch is clear and the hold policy has acted. -/
def Axis.released (x : Axis) : Axis :=
  if x.flushes = true ∧ x.pending.isEmpty = false then
    { x with latch := false, pending := [], lastOutcome := some .flushed }
  else { x with latch := false }

theorem announceAxis_of_alone {o : MoveOutcome} (enabled : (getAxis s a).state ≠ .disabled)
    (alone : (getAxis s a).coupling = none) : ∃ t, getAxis t a = (getAxis s a).released ∧
      announceAxis o a s = publishMotion a (slowStop a o none t) := by
  refine ⟨if (getAxis s a).flushes then flushPending a (setAxis a { getAxis s a with latch := false } s)
    else setAxis a { getAxis s a with latch := false } s, ?_, ?_⟩
  · rw [Axis.released]
    split
    next flushes =>
      rw [getAxis_flushPending, getAxis_setAxis_same]
      dsimp only
      cases (getAxis s a).pending.isEmpty with
      | true => rw [if_pos rfl, if_neg (by simp)]
      | false => rw [if_neg (by simp), if_pos ⟨flushes, rfl⟩]
    next keeps => rw [getAxis_setAxis_same, if_neg (fun h => keeps h.1)]
  · unfold announceAxis
    dsimp only
    rw [if_neg enabled, if_neg (by simp [Axis.isFollower, alone])]

end

/-- What the announcement of SAFE leaves of an axis that is no follower. -/
structure Axis.HeldBy (o : MoveOutcome) (x y : Axis) : Prop where
  fast : ∀ c, x.state = .moving → x.current = some c → c.vs < c.vacc / 1000 →
    y.state = .stopping ∧ y.phase = .none ∧ y.current = some c ∧ y.stop = some { outcome := o, namer := none }
  slow : ∀ c, x.state = .moving → x.current = some c → c.vacc / 1000 ≤ c.vs →
    y.state = .idle ∧ y.phase = .none ∧ y.current = none ∧ y.stop = none ∧ y.lastOutcome = some o ∧ y.cp = x.cp
  still : x.state ≠ .moving → y.state = x.state ∧ y.current = x.current ∧ y.stop = x.stop
  pending : ∀ cfg, x.cfg = some cfg → x.state ≠ .disabled → y.pending = match cfg.policy with
    | .keep => x.pending
    | .flush => []
  cfg : y.cfg = x.cfg

theorem Axis.released_pending {x : Axis} {cfg : AxisCfg} (hc : x.cfg = some cfg) :
    x.released.pending = match cfg.policy with
      | .keep => x.pending
      | .flush => [] := by
  unfold Axis.released Axis.flushes
  rw [hc]
  cases hq : cfg.policy with
  | keep => simp [hq]
  | flush => cases hp : x.pending <;> simp [hq]

theorem Axis.released_eq (x : Axis) : x.released.state = x.state ∧ x.released.current = x.current ∧
    x.released.stop = x.stop ∧ x.released.cp = x.cp ∧ x.released.cfg = x.cfg ∧ x.released.latch = false := by
  unfold Axis.released
  split <;> exact ⟨rfl, rfl, rfl, rfl, rfl, rfl⟩

theorem announceAxis_holds {a : AxisId} {s : State} (o : MoveOutcome)
    (alone : (getAxis s a).coupling = none) : (getAxis s a).HeldBy o (getAxis (announceAxis o a s) a) := by
  by_cases disabled : (getAxis s a).state = .disabled
  · have same : announceAxis o a s = s := if_pos disabled
    rw [same]
    have still : (getAxis s a).state ≠ .moving := by rw [disabled]; decide
    exact ⟨fun _ m => absurd m still, fun _ m => absurd m still, fun _ => ⟨rfl, rfl, rfl⟩,
      fun _ _ enabled => absurd disabled enabled, rfl⟩
  obtain ⟨t, channel, announced⟩ := announceAxis_of_alone (o := o) disabled alone
  rw [announced, (beside_publishMotion a _).getAxis]
  obtain ⟨state, current, stop, cp, cfg, latch⟩ := (getAxis s a).released_eq
  have pending (c : AxisCfg) := (getAxis s a).released_pending (cfg := c)
  generalize (getAxis s a).released = w at *
  rw [← channel] at state current stop cp cfg latch pending
  have coupling : (getAxis t a).coupling = none := by rw [← alone, Axis.coupling, Axis.coupling, cfg]
  by_cases moving : (getAxis t a).state = .moving
  · cases hc : (getAxis t a).current with
    | none =>
      have same : slowStop a o none t = t := by
        unfold slowStop
        dsimp only
        split
        next h => cases hc.symm.trans h
        next => rfl
      rw [same]
      exact ⟨fun c _ h => (by rw [← current, hc] at h; cases h), fun c _ h => (by rw [← current, hc] at h; cases h),
        fun h => absurd (state.symm.trans moving) h, fun c h _ => pending c h, cfg⟩
    | some c =>
      have only {d : Current} (h : (getAxis s a).current = some d) : d = c :=
        Option.some.inj (h.symm.trans (current.symm.trans hc))
      by_cases slow : c.vacc / 1000 ≤ c.vs
      · rw [getAxis_slowStop_of_slow moving hc slow latch coupling]
        exact ⟨fun d _ h fast => absurd slow (Nat.not_le.2 (only h ▸ fast)),
          fun d _ _ _ => ⟨rfl, rfl, rfl, rfl, rfl, cp⟩, fun h => absurd (state.symm.trans moving) h,
          fun c h _ => pending c h, cfg⟩
      · rw [getAxis_slowStop_of_fast moving hc (Nat.not_le.1 slow) coupling]
        exact ⟨fun d _ h _ => ⟨rfl, rfl, by rw [only h]; exact hc, rfl⟩,
          fun d _ h low => absurd (only h ▸ low) slow, fun h => absurd (state.symm.trans moving) h,
          fun c h _ => pending c h, cfg⟩
  · rw [slowStop_of_not_moving moving]
    have still : (getAxis s a).state ≠ .moving := state ▸ moving
    exact ⟨fun _ m => absurd m still, fun _ m => absurd m still, fun _ => ⟨state, current, stop⟩,
      fun c h _ => pending c h, cfg⟩

/-- R82: each axis takes the announcement once; those to the others do not reach an axis that follows
none. -/
theorem announceAll_holds {a : AxisId} {s : State} (o : MoveOutcome)
    (alone : (getAxis s a).coupling = none) : (getAxis s a).HeldBy o (getAxis (announceAll o s) a) := by
  have once : allAxes.Nodup := List.nodup_finRange 4
  obtain ⟨before, after, split⟩ := List.append_of_mem (mem_allAxes a)
  rw [split] at once
  obtain ⟨-, later, apart⟩ := List.nodup_append.1 once
  have earlier (b : AxisId) (hb : b ∈ before) : b ≠ a := apart b hb a List.mem_cons_self
  rw [announceAll, split, List.foldl_append, List.foldl_cons]
  have first : getAxis (before.foldl (fun t b => announceAxis o b t) s) a = getAxis s a :=
    Spares.foldl before (fun t b hb => spares_announceAxis (earlier b hb) o) s (.inl alone)
  generalize before.foldl (fun t b => announceAxis o b t) s = t at *
  rw [← first] at alone ⊢
  have own := announceAxis_holds o alone
  have rest : getAxis (after.foldl (fun t b => announceAxis o b t) (announceAxis o a t)) a =
      getAxis (announceAxis o a t) a :=
    Spares.foldl after (fun t b hb => spares_announceAxis
      (by rintro rfl; exact (List.nodup_cons.1 later).1 hb) o) _
      (.inl (by rw [← alone, Axis.coupling, Axis.coupling, own.cfg]))
  rwa [rest]

theorem refuseHeld_hold (why : RefuseReason) (s : State) : (refuseHeld why s).hold = [] := by
  unfold refuseHeld
  have emptied : { s with hold := [] }.hold = [] := rfl
  generalize { s with hold := [] } = t at *
  exact (KeepsAll.foldl (fun u _ => keepsAll_refuse _ _ _ _ _ u) s.hold t).held emptied

/-- Settles O55: the held orders are refused, then every axis takes the announcement. -/
theorem safeEntryHoldsTheRamps : Obligations.SafeEntryHoldsTheRamps := by
  unfold Obligations.SafeEntryHoldsTheRamps
  intro cause s
  have refused : Beside { s with mode := .safe } (refuseHeld .mode { s with mode := .safe }) :=
    beside_refuseHeld .mode _
  have emptied := refuseHeld_hold .mode { s with mode := .safe }
  have before (a : AxisId) : getAxis (refuseHeld .mode { s with mode := .safe }) a = getAxis s a :=
    refused.getAxis a
  have mode : (refuseHeld .mode { s with mode := .safe }).mode = .safe := refused.mode
  unfold enterSafe tellSafe
  generalize refuseHeld .mode { s with mode := .safe } = u at *
  have announced := beside_announceMode s.mode .safe cause (announceAll .safe u)
  have calm : Calms u (announceAll .safe u) := (announced_calms .safe allAxes u).1
  have clear : ∀ b ∈ allAxes, (getAxis u b).state ≠ .disabled → (getAxis (announceAll .safe u) b).latch = false :=
    (announced_calms .safe allAxes u).2
  have safe : (announceAll .safe u).mode = .safe := calm.mode.trans mode
  refine ⟨announced.mode.trans safe, ?_, fun a enabled => ?_, ?_⟩
  · exact ((keepsAll_announceAll .safe u).trans (keepsAll_announceMode s.mode .safe cause _)).held emptied
  · rw [announced.getAxis]
    exact clear a (mem_allAxes a) (by rwa [before])
  · intro a x y hx hy alone
    have held := announceAll_holds (a := a) (s := u) .safe (by rwa [before, ← hx])
    rw [before, ← announced.getAxis, ← hx, ← hy] at held
    exact ⟨held.fast, held.slow, held.still, held.pending⟩

end Sys2Proof.Machine

/-! # Proofs: fault classes and the 100 ms tick (R18, R20, R54, R178, R180) -/

namespace Sys2Proof.Machine

open Sys2Proof

/-! ## Classes that have changed (R178, R180) -/

theorem responseTo_of_keeps {s t : State} (h : KeepsAll s t) (c : FaultClass) :
    responseTo t c = responseTo s c := by
  have same : t.responses = s.responses := congrArg Frozen.responses h.frozen
  rw [responseTo, responseTo, same]

/-- R178: point 698 and the reports of the classes that have changed. -/
def classesReported (cs : List FaultClass) (who : Contributor) (s : State) : State :=
  cs.foldl (fun t c => offerReport ⟨true, .fault c (getClass s c).active who (activeSet s)⟩ t)
    (writePoints [(698, (activeSet s).toNat)] s)

theorem classesReported_mode (cs : List FaultClass) (who : Contributor) (s : State) :
    (classesReported cs who s).mode = s.mode :=
  ((beside_writePoints _ s).trans (Beside.foldl (fun t _ => beside_offerReport _ t) cs _)).mode

theorem responseTo_classesReported (cs : List FaultClass) (who : Contributor) (s : State) (d : FaultClass) :
    responseTo (classesReported cs who s) d = responseTo s d :=
  responseTo_of_keeps ((keepsAll_writePoints _ s (by simp)).trans
    (KeepsAll.foldl (fun t _ => keepsAll_offerReport _ t) cs _)) d

/-- R180: whether an active class takes the part into SAFE. -/
def Acts (s : State) (c : FaultClass) : Prop :=
  (getClass s c).active = true ∧ s.mode = .run ∧ responseTo s c = .safe

theorem not_acts {s : State} {c : FaultClass}
    (h : (getClass s c).active = false ∨ s.mode ≠ .run ∨ responseTo s c = .goOn) : ¬Acts s c := by
  rintro ⟨active, run, safe⟩
  rcases h with h | h | h
  · simp [h] at active
  · exact h run
  · simp [h] at safe

theorem classesChanged_of_calm {c : FaultClass} {cs : List FaultClass} {who : Contributor} {s : State}
    (h : ∀ d ∈ c :: cs, ¬Acts s d) :
    classesChanged (c :: cs) who s = classesReported (c :: cs) who s := by
  have calm (l : List FaultClass) (hl : ∀ d ∈ l, ¬Acts s d) : l.foldl (fun t d =>
      if (getClass s d).active = true ∧ t.mode = .run ∧ responseTo t d = .safe then enterSafe (.fault d) t
      else t) (classesReported (c :: cs) who s) = classesReported (c :: cs) who s := by
    induction l with
    | nil => rfl
    | cons d l ih =>
      have still := hl d List.mem_cons_self
      rw [Acts, ← classesReported_mode (c :: cs) who s, ← responseTo_classesReported (c :: cs) who s] at still
      rw [List.foldl_cons, if_neg still]
      exact ih (fun e he => hl e (List.mem_cons_of_mem d he))
  exact calm (c :: cs) h

theorem classesChanged_of_acts {c : FaultClass} {who : Contributor} {s : State} (h : Acts s c) :
    classesChanged [c] who s = enterSafe (.fault c) (classesReported [c] who s) := by
  have unfolded : classesChanged [c] who s =
      if (getClass s c).active = true ∧ (classesReported [c] who s).mode = .run ∧
          responseTo (classesReported [c] who s) c = .safe then
        enterSafe (.fault c) (classesReported [c] who s)
      else classesReported [c] who s := rfl
  rw [unfolded, classesReported_mode, responseTo_classesReported]
  exact if_pos h

/-! ## Tellings and occurrences (R178) -/

theorem contributors_setClass (c d : FaultClass) (x : ClassState) (s : State) :
    contributors (setClass c x s) d = contributors s d := by
  cases d <;> rfl

theorem getClass_recount (c d : FaultClass) (s : State) : getClass (recount c s) d =
    if d = c then { getClass s c with count := contributors s c, active := decide (0 < contributors s c) }
    else getClass s d := getClass_setClass c d _ s

theorem tell_of_running {cs : List FaultClass} {who : Contributor} {s : State} (h : s.rebuilding = none) :
    tell cs who s = classesChanged (cs.filter (fun c => decide
      ((getClass (cs.foldl (fun t c => recount c t) s) c).active ≠ (getClass s c).active))) who
      (cs.foldl (fun t c => recount c t) s) := if_neg (by simp [h])

/-- One class told: nothing more where its activity stands. -/
theorem tell_one {c : FaultClass} {who : Contributor} {s : State} (h : s.rebuilding = none) :
    tell [c] who s = if (getClass s c).active = decide (0 < contributors s c) then recount c s
      else classesChanged [c] who (recount c s) := by
  rw [tell_of_running h, List.foldl_cons, List.foldl_nil]
  by_cases same : (getClass s c).active = decide (0 < contributors s c)
  · rw [if_pos same, List.filter_cons_of_neg (by simp [getClass_recount, same])]
    rfl
  · rw [if_neg same, List.filter_cons_of_pos (by simpa [getClass_recount] using fun h => same h.symm)]
    rfl

theorem occurrence_of_running {o : OccurrenceClass} {c : FaultClass} {who : Contributor} {s : State}
    (h : s.rebuilding = none) (hc : c = occurrenceFault o) : occurrence o who s =
      if (getClass s c).active then setClass c { getClass s c with active := true, timer := 100 } s
      else classesChanged [c] who (setClass c { getClass s c with active := true, timer := 100 } s) := by
  subst hc
  exact if_neg (by simp [h])

theorem mem_singleton_not_acts {s : State} {c : FaultClass} (h : ¬Acts s c) : ∀ d ∈ [c], ¬Acts s d := by
  intro d hd
  rwa [List.mem_singleton.1 hd]

/-- Settles O56: the tick counts by its definition; a class that changes is reported, and acts by R180. -/
theorem hundredMillisecondTickCounts : Obligations.HundredMillisecondTickCounts := by
  unfold Obligations.HundredMillisecondTickCounts
  refine ⟨fun s => rfl, ?_, ?_, ?_, ?_⟩
  · intro o c s u hc hu
    have expires : exec (.occurrenceTimerExpiry o) s = .next (settle (occurrenceExpires o s)) := rfl
    rw [expires, occurrenceExpires, ← hc]
    have inactive : (getClass u c).active = false := by rw [hu, getClass_setClass_same]
    constructor
    · intro active timer
      rw [if_pos ⟨active, timer⟩, ← hu,
        classesChanged_of_calm (mem_singleton_not_acts (not_acts (.inl inactive)))]
      simp only [classesReported, List.foldl_cons, List.foldl_nil, inactive]
    · intro still
      rw [if_neg (fun ⟨active, timer⟩ => still.elim (fun h => by simp [h] at active) (fun h => h timer))]
  · intro c who s u v running hu hv
    have active : (getClass u c).active = decide (0 < contributors s c) := by
      rw [hu, getClass_setClass_same]
    have reported : classesReported [c] who u = v := by
      rw [hv, ← active]
      rfl
    have counted : recount c s = u := hu.symm
    have mode : u.mode = s.mode := by rw [hu]; rfl
    have response : responseTo u c = responseTo s c := by rw [hu]; rfl
    rw [tell_one running, counted]
    refine ⟨fun same => if_pos same, fun changed => ?_⟩
    rw [if_neg changed]
    constructor
    · intro some run safe
      rw [classesChanged_of_acts ⟨by simpa [active] using some, by rw [mode, run], by rw [response, safe]⟩,
        reported]
    · intro calm
      rw [classesChanged_of_calm (mem_singleton_not_acts (not_acts ?_)), reported]
      rw [active, mode, response]
      exact calm.imp_left (fun none => by simp [none])
  · intro c d who s u running order first second calm hu
    have apart : c ≠ d := by
      rintro rfl
      exact lt_irrefl _ order
    have counted : [c, d].foldl (fun t c => recount c t) s = u := by
      rw [hu, List.foldl_cons, List.foldl_cons, List.foldl_nil, recount, recount, contributors_setClass,
        getClass_setClass, if_neg apart.symm]
    have activeC : (getClass u c).active = decide (0 < contributors s c) := by
      rw [hu, getClass_setClass, if_neg apart, getClass_setClass_same]
    have activeD : (getClass u d).active = decide (0 < contributors s d) := by
      rw [hu, getClass_setClass_same]
    have mode : u.mode = s.mode := by rw [hu]; rfl
    have response (e : FaultClass) : responseTo u e = responseTo s e := by rw [hu]; rfl
    have both : [c, d].filter (fun e => decide ((getClass u e).active ≠ (getClass s e).active)) = [c, d] :=
      List.filter_eq_self.2 (by simp [activeC, activeD, first.symm, second.symm])
    rw [tell_of_running running, counted, both, classesChanged_of_calm]
    · simp only [classesReported, List.foldl_cons, List.foldl_nil, activeC, activeD]
    · intro e he
      refine not_acts (.inr ?_)
      rw [mode, response]
      rcases calm with mode | ⟨goC, goD⟩
      · exact .inl mode
      · rcases List.mem_pair.1 he with rfl | rfl
        · exact .inr goC
        · exact .inr goD
  · intro o c who s u v running hc hu hv
    have active : (getClass u c).active = true := by rw [hu, getClass_setClass_same]
    have reported : classesReported [c] who u = v := by
      simp only [hv, classesReported, List.foldl_cons, List.foldl_nil, active]
    have mode : u.mode = s.mode := by rw [hu]; rfl
    have response : responseTo u c = responseTo s c := by rw [hu]; rfl
    rw [occurrence_of_running running hc, ← hu]
    refine ⟨fun h => if_pos h, fun h run safe => ?_, fun h calm => ?_⟩ <;> rw [if_neg (by simp [h])]
    · rw [classesChanged_of_acts ⟨active, by rw [mode, run], by rw [response, safe]⟩, reported]
    · rw [classesChanged_of_calm (mem_singleton_not_acts (not_acts (.inr (by rwa [mode, response])))),
        reported]

end Sys2Proof.Machine

/-! # Proofs: SET_MODE, the CONFIG conditions and the validation (R106, R108, R144, R176, R177, R180) -/

namespace Sys2Proof.Machine

open Sys2Proof

/-! ## The first of a list (R177, R180) -/

/-- The first element that meets a test, in a list of everything by rising key, is the one of the least
key. -/
theorem find?_eq_some_of_sorted {α : Type} {key : α → Nat} {l : List α}
    (sorted : l.Pairwise (fun x y => key x < key y)) (all : ∀ x, x ∈ l) (p : α → Bool) (x : α) :
    l.find? p = some x ↔ p x = true ∧ ∀ y, key y < key x → p y = false := by
  rw [List.find?_eq_some_iff_append]
  refine and_congr_right (fun _ => ⟨?_, fun h => ?_⟩)
  · rintro ⟨before, after, rfl, none⟩ y less
    obtain ⟨-, above, -⟩ := List.pairwise_append.1 sorted
    rcases List.mem_append.1 (all y) with hy | hy
    · simpa using none y hy
    · rcases List.mem_cons.1 hy with rfl | hy
      · exact absurd less (lt_irrefl _)
      · exact absurd less (not_lt.2 ((List.pairwise_cons.1 above).1 y hy).le)
  · obtain ⟨before, after, rfl⟩ := List.append_of_mem (all x)
    obtain ⟨-, -, apart⟩ := List.pairwise_append.1 sorted
    exact ⟨before, after, rfl, fun y hy => by simp [h y (apart y hy x List.mem_cons_self)]⟩

theorem find?_allAxes (p : AxisId → Bool) (a : AxisId) :
    allAxes.find? p = some a ↔ p a = true ∧ ∀ b < a, p b = false :=
  find?_eq_some_of_sorted (key := Fin.val) (by decide) mem_allAxes p a

theorem safeClass_eq_some (s : State) (c : FaultClass) : safeClass s = some c ↔
    (getClass s c).active = true ∧ responseTo s c = .safe ∧
      ∀ d, d.bit < c.bit → (getClass s d).active = true → responseTo s d = .goOn := by
  rw [safeClass, find?_eq_some_of_sorted (key := fun c => c.bit.val) (by decide) (by intro x; cases x <;> decide),
    Bool.and_eq_true, decide_eq_true_iff, and_assoc]
  refine and_congr_right (fun _ => and_congr_right (fun _ => forall_congr' (fun d => ?_)))
  refine imp_congr_right (fun _ => ?_)
  cases (getClass s d).active <;> cases responseTo s d <;> simp

theorem safeClass_eq_none {s : State} (h : ∀ c, (getClass s c).active = true → responseTo s c = .goOn) :
    safeClass s = none :=
  List.find?_eq_none.2 (fun c _ both => by
    obtain ⟨active, safe⟩ := Bool.and_eq_true _ _ ▸ both
    simp [h c active] at safe)

theorem safeClass_isSome {s : State} {c : FaultClass} (active : (getClass s c).active = true)
    (safe : responseTo s c = .safe) : (safeClass s).isSome = true :=
  List.find?_isSome.2 ⟨c, by cases c <;> decide, by simp [active, safe]⟩

/-! ## SET_MODE (Table 10-1) -/

theorem exec_setMode {r : Request} {rest : List Request} {m : Nat} {s u : State} {result : ReplyResult}
    (head : s.manage = r :: rest) (body : r.body = .setMode m) (effect : setMode m r.tag s = (u, result)) :
    exec .setMode s = .next (completed r result [] u) := by
  have run : exec .setMode s = execSetMode s := rfl
  rw [run, execSetMode, head]
  simp only [body, completeHead, effect]
  rfl

theorem departConfig_of_bad {s : State} {new : Mode} {tag : Byte} {t i : Nat} (h : validate s = some (t, i)) :
    departConfig new tag s = (s, .validation t i) := by
  unfold departConfig
  rw [h]

theorem departConfig_of_safe {s : State} {tag : Byte} {c : FaultClass} (h : validate s = none)
    (hc : safeClass s = some c) : departConfig .run tag s = (leaveConfig .safe (.fault c) s, .ok) := by
  unfold departConfig
  rw [h, hc]

theorem departConfig_of_calm {s : State} {tag : Byte} (h : validate s = none) (hc : safeClass s = none) :
    departConfig .run tag s = (leaveConfig .run (.request tag) s, .ok) := by
  unfold departConfig
  rw [h, hc]

theorem departConfig_toSafe {s : State} {tag : Byte} (h : validate s = none) :
    departConfig .safe tag s = (leaveConfig .safe (.request tag) s, .ok) := by
  unfold departConfig
  rw [h]

theorem setMode_of_same (tag : Byte) (s : State) : setMode s.mode.code tag s = (s, .ok) := by
  unfold setMode
  cases s.mode <;> rfl

theorem setMode_of_high {m : Nat} (tag : Byte) (s : State) (h : 2 < m) : setMode m tag s = (s, .range) := by
  obtain ⟨n, rfl⟩ := Nat.exists_eq_add_of_le' h
  unfold setMode
  cases s.mode <;> rfl

theorem setMode_config {s : State} (tag : Byte) (h : s.mode ≠ .config) : setMode 0 tag s =
    if configAllowed s then (enterConfig (.request tag) s, .ok) else (s, .mode) := by
  unfold setMode
  cases hm : s.mode with
  | config => exact absurd hm h
  | run | safe => rfl

theorem setMode_run {s : State} (tag : Byte) (h : s.mode = .safe) : setMode 1 tag s =
    if (safeClass s).isSome then (s, .mode)
    else (announceMode .safe .run (.request tag) { s with mode := .run }, .ok) := by
  unfold setMode
  cases hm : s.mode with
  | safe => rfl
  | config | run => cases h.symm.trans hm

/-! ## The CONFIG conditions (R176) -/

theorem axisAllowsConfig_iff (x : Axis) : axisAllowsConfig x = true ↔
    (x.state = .idle ∧ x.pending = []) ∨ x.state = .disabled ∨ x.state = .fault := by
  unfold axisAllowsConfig
  cases x.state <;> simp

theorem configAllowed_iff (s : State) : configAllowed s = true ↔
    (∀ a : AxisId, ((getAxis s a).state = .idle ∧ (getAxis s a).pending = []) ∨
      (getAxis s a).state = .disabled ∨ (getAxis s a).state = .fault) ∧
    (∀ e ∈ s.zones, e.2.state = .normal) ∧ (∀ c ∈ s.calls, c.priority ≠ 0) := by
  simp only [configAllowed, Bool.and_eq_true, List.all_eq_true, decide_eq_true_iff, and_assoc,
    axisAllowsConfig_iff, mem_allAxes, true_implies]

/-! ## The validation (R106, R108, R144, R177) -/

/-- The first entry of a table that fails a check. -/
theorem find?_bad_eq_some {β : Type} (l : List (Nat × β)) (good : Nat × β → Bool) (i : Nat) :
    (∃ x, l.find? (fun e => !good e) = some (i, x)) ↔ ∃ before x after,
      l = before ++ (i, x) :: after ∧ good (i, x) = false ∧ ∀ e ∈ before, good e = true := by
  simp only [List.find?_eq_some_iff_append, Bool.not_eq_true', Bool.not_not]
  constructor
  · rintro ⟨x, bad, before, after, split, sound⟩
    exact ⟨before, x, after, split, bad, sound⟩
  · rintro ⟨before, x, after, split, bad, sound⟩
    exact ⟨x, bad, before, after, split, sound⟩

theorem find?_bad_eq_none {β : Type} (l : List (Nat × β)) (good : Nat × β → Bool) :
    l.find? (fun e => !good e) = none ↔ ∀ e ∈ l, good e = true := by
  simp only [List.find?_eq_none, Bool.not_eq_true', Bool.not_eq_false]

/-- R177: the answer of the first table with a bad entry. -/
theorem validate_eq (s : State) : validate s =
    ((allAxes.find? (fun a => match (getAxis s a).cfg with
      | some c => !axisValid s c
      | none => false)).map (fun a => (3, a.val))).or
    (((s.doors.find? (fun e => !doorValid s e.2.cfg)).map (fun e => (4, e.1))).or
    (((s.zones.find? (fun e => !zoneValid s e.1 e.2.cfg)).map (fun e => (5, e.1))).or
    ((s.programs.find? (fun e => !programValid s e.2)).map (fun e => (6, e.1))))) := by
  unfold validate
  cases allAxes.find? _ with
  | some a => rfl
  | none =>
    cases s.doors.find? _ with
    | some e => rfl
    | none =>
      cases s.zones.find? _ with
      | some e => rfl
      | none => cases s.programs.find? _ <;> rfl

theorem axisValid_iff (s : State) (c : AxisCfg) : axisValid s c = true ↔
    (∀ z, c.zone = some z → ∃ w, Tab.get? s.zones z = some w) ∧
    (∀ n, c.warning = some n → ∃ w, Tab.get? s.templates n = some w) ∧
    (∀ k, c.coupling = some k → ∃ l, (getAxis s k.leader).cfg = some l ∧ l.coupling = none ∧
      l.zone = c.zone ∧ ⌈((l.vmax * k.nf : Nat) : ℚ) / (k.nl : ℚ)⌉ ≤ (c.vmax : Int)) := by
  rw [axisValid, Bool.and_eq_true, Bool.and_eq_true, and_assoc]
  refine and_congr ?_ (and_congr ?_ ?_)
  · cases c.zone <;> simp [Option.isSome_iff_exists]
  · cases c.warning <;> simp [Option.isSome_iff_exists]
  · cases c.coupling with
    | none => simp
    | some k =>
      simp only [Option.some.injEq, forall_eq']
      cases (getAxis s k.leader).cfg with
      | none => simp
      | some l => simp only [Option.some.injEq, exists_eq_left', Bool.and_eq_true, Option.isNone_iff_eq_none,
          decide_eq_true_iff, and_assoc, ← ceilDiv_eq_ceil, Nat.cast_le]

theorem mapEntryOf_isSome (s : State) (n : Nat) :
    (mapEntryOf s n).isSome = true ↔ ∃ e ∈ s.pointMap, e.2.point = n := by
  simp [mapEntryOf, List.find?_isSome]

theorem doorValid_iff (s : State) (c : DoorCfg) : doorValid s c = true ↔
    (∃ e, (getStation s c.station).entry = some e ∧ e.side = .d) ∧
    (∃ w, Tab.get? s.zones c.zone = some w) ∧ (∃ e ∈ s.pointMap, e.2.point = c.closedPoint) ∧
    (∃ e ∈ s.pointMap, e.2.point = c.openPoint) := by
  simp only [doorValid, Bool.and_eq_true, decide_eq_true_iff, mapEntryOf_isSome, and_assoc]
  simp only [Option.isSome_iff_exists, Option.map_eq_some_iff]

theorem zoneValid_iff (s : State) (z : Nat) (c : ZoneCfg) : zoneValid s z c = true ↔
    (∀ q, c.parent = some q → ∃ w, Tab.get? s.zones q = some w) ∧
    z ∉ ancestors s.zones Config.zoneFuel z ∧ (ancestors s.zones Config.zoneFuel z).length + 1 ≤ 4 ∧
    (∀ q, c.program = some q → ∃ w, Tab.get? s.programs q = some w) ∧
    (∀ n, c.alertTemplate = some n → ∃ w, Tab.get? s.templates n = some w) := by
  simp only [zoneValid, Bool.and_eq_true, decide_eq_true_iff, and_assoc]
  refine and_congr ?_ (and_congr_right (fun _ => and_congr Nat.lt_iff_add_one_le (and_congr ?_ ?_)))
  · cases c.parent <;> simp [Option.isSome_iff_exists]
  · cases c.program <;> simp [Option.isSome_iff_exists]
  · cases c.alertTemplate <;> simp [Option.isSome_iff_exists]

theorem stepValid_iff (s : State) (count k : Nat) (step : ProgStep) : stepValid s count k step = true ↔
    (∀ c target, step = .branch c target → k < target ∧ target ≤ count) ∧
    (∀ st code d v, step = .order st code d v → code ≠ 0x11) ∧
    (∀ n, step = .call n → ∃ w, Tab.get? s.templates n = some w) := by
  cases step with
  | order st code d v =>
    simp only [stepValid, decide_eq_true_iff, reduceCtorEq, false_implies, implies_true, true_and, and_true]
    exact ⟨fun h _ _ _ _ same => by cases same; exact h, fun h => h _ _ _ _ rfl⟩
  | _ => simp [stepValid, Option.isSome_iff_exists]

theorem programValid_iff (s : State) (prog : List ProgStep) : programValid s prog = true ↔
    ∀ k step, prog[k]? = some step →
      (∀ c target, step = .branch c target → k + 1 < target ∧ target ≤ prog.length) ∧
      (∀ st code d v, step = .order st code d v → code ≠ 0x11) ∧
      (∀ n, step = .call n → ∃ w, Tab.get? s.templates n = some w) := by
  rw [programValid, List.all_eq_true]
  constructor
  · intro h k step found
    exact (stepValid_iff s prog.length (k + 1) step).1 (h (step, k) (List.mk_mem_zipIdx_iff_getElem?.2 found))
  · rintro h ⟨step, k⟩ member
    exact (stepValid_iff s prog.length (k + 1) step).2
      (h k step (List.mk_mem_zipIdx_iff_getElem?.1 member))

/-- R177: the tables are searched in their order; the first bad entry of the first bad table is named. -/
theorem validate_iff {s : State} {badAxis : AxisId → Prop}
    (bad : ∀ a, badAxis a ↔ ∃ c, (getAxis s a).cfg = some c ∧ axisValid s c = false) :
    (∀ i, validate s = some (3, i) ↔ ∃ a : AxisId, a.val = i ∧ badAxis a ∧ ∀ b < a, ¬badAxis b) ∧
    (∀ i, validate s = some (4, i) ↔ (∀ a, ¬badAxis a) ∧ ∃ before x after,
      s.doors = before ++ (i, x) :: after ∧ doorValid s x.cfg = false ∧
      ∀ e ∈ before, doorValid s e.2.cfg = true) ∧
    (∀ i, validate s = some (5, i) ↔ (∀ a, ¬badAxis a) ∧
      (∀ e ∈ s.doors, doorValid s e.2.cfg = true) ∧ ∃ before x after,
      s.zones = before ++ (i, x) :: after ∧ zoneValid s i x.cfg = false ∧
      ∀ e ∈ before, zoneValid s e.1 e.2.cfg = true) ∧
    (∀ i, validate s = some (6, i) ↔ (∀ a, ¬badAxis a) ∧
      (∀ e ∈ s.doors, doorValid s e.2.cfg = true) ∧
      (∀ e ∈ s.zones, zoneValid s e.1 e.2.cfg = true) ∧ ∃ before x after,
      s.programs = before ++ (i, x) :: after ∧ programValid s x = false ∧
      ∀ e ∈ before, programValid s e.2 = true) ∧
    (validate s = none ↔ (∀ a, ¬badAxis a) ∧ (∀ e ∈ s.doors, doorValid s e.2.cfg = true) ∧
      (∀ e ∈ s.zones, zoneValid s e.1 e.2.cfg = true) ∧
      (∀ e ∈ s.programs, programValid s e.2 = true)) := by
  have axis (a : AxisId) : (match (getAxis s a).cfg with
      | some c => !axisValid s c
      | none => false) = true ↔ badAxis a := by
    rw [bad]
    cases (getAxis s a).cfg <;> simp
  have axes : allAxes.find? (fun a => match (getAxis s a).cfg with
      | some c => !axisValid s c
      | none => false) = none ↔ ∀ a, ¬badAxis a := by
    rw [List.find?_eq_none]
    exact ⟨fun h a => mt (axis a).2 (h a (mem_allAxes a)), fun h a _ => mt (axis a).1 (h a)⟩
  have firstAxis (a : AxisId) : allAxes.find? (fun a => match (getAxis s a).cfg with
      | some c => !axisValid s c
      | none => false) = some a ↔ badAxis a ∧ ∀ b < a, ¬badAxis b := by
    rw [find?_allAxes, axis]
    exact and_congr_right (fun _ => forall_congr' (fun b => imp_congr_right (fun _ => by
      rw [← Bool.not_eq_true, axis])))
  have doors := find?_bad_eq_none s.doors (fun e => doorValid s e.2.cfg)
  have zones := find?_bad_eq_none s.zones (fun e => zoneValid s e.1 e.2.cfg)
  have programs := find?_bad_eq_none s.programs (fun e => programValid s e.2)
  rw [← axes, ← doors, ← zones, ← programs, validate_eq]
  simp only [← firstAxis, ← find?_bad_eq_some s.doors (fun e => doorValid s e.2.cfg),
    ← find?_bad_eq_some s.zones (fun e => zoneValid s e.1 e.2.cfg),
    ← find?_bad_eq_some s.programs (fun e => programValid s e.2)]
  generalize allAxes.find? _ = A
  generalize s.doors.find? _ = D
  generalize s.zones.find? _ = Z
  generalize s.programs.find? _ = P
  cases A with
  | some a => simp
  | none =>
    cases D with
    | some d => simp [Prod.ext_iff]
    | none =>
      cases Z with
      | some z => simp [Prod.ext_iff]
      | none => cases P <;> simp [Prod.ext_iff]

/-- Settles O54: Table 10-1 by the mode that stands, then the conditions and the validation. -/
theorem setModeFollowsTheModeThatStands : Obligations.SetModeFollowsTheModeThatStands := by
  unfold Obligations.SetModeFollowsTheModeThatStands
  intro r rest m s head body
  have done {u : State} {result : ReplyResult} (effect : setMode m r.tag s = (u, result)) :
      exec .setMode s = .next (completed r result [] u) := exec_setMode head body effect
  have departs (new : Mode) (hm : m = new.code) (hn : new ≠ .config) (mode : s.mode = .config) :
      setMode m r.tag s = departConfig new r.tag s := by
    rw [hm]
    unfold setMode
    cases new with
    | config => exact absurd rfl hn
    | run | safe => rw [mode]; rfl
  refine ⟨?_, ?_, ?_, ?_, ?_, ?_, ?_, ?_, ?_, ?_, ?_, configAllowed_iff s, safeClass_eq_some s,
    fun _ => validate_iff, axisValid_iff s, doorValid_iff s, zoneValid_iff s, programValid_iff s⟩
  · rintro rfl
    exact done (setMode_of_same r.tag s)
  · rintro rfl run
    exact done (by unfold setMode; rw [run]; rfl)
  · rintro rfl safe calm
    exact done (by rw [setMode_run r.tag safe, safeClass_eq_none calm]; rfl)
  · rintro c rfl safe active acts
    exact done (by rw [setMode_run r.tag safe, if_pos (safeClass_isSome active acts)])
  · rintro rfl mode allowed
    exact done (by rw [setMode_config r.tag mode, if_pos allowed])
  · rintro rfl mode barred
    exact done (by rw [setMode_config r.tag mode, if_neg (by simp [barred])])
  · rintro t i (hm | hm) mode found
    · exact done (by rw [departs .run hm (by decide) mode, departConfig_of_bad found])
    · exact done (by rw [departs .safe hm (by decide) mode, departConfig_of_bad found])
  · intro hm mode sound calm
    exact done (by rw [departs .run hm (by decide) mode, departConfig_of_calm sound (safeClass_eq_none calm)])
  · intro c hm mode sound found
    exact done (by rw [departs .run hm (by decide) mode, departConfig_of_safe sound found])
  · intro hm mode sound
    exact done (by rw [departs .safe hm (by decide) mode, departConfig_toSafe sound])
  · intro high
    exact done (setMode_of_high r.tag s high)

end Sys2Proof.Machine

/-! # Proofs: MANAGE frames and reads (R163, R164, R169, R170, Table 9-8) -/

namespace Sys2Proof.Machine

open Sys2Proof

/-! ## Accepting (R163, R164) -/

section
variable {p : Port} {f : Frame} {t : State}

theorem onManage_of_toPart (hd : f.dest = 0) : onManage p f t = acceptManage p f t := by
  rw [onManage, destination_of_toPart hd]

theorem onManage_of_across (h : destination t p f = .across) : onManage p f t = forwardFrame p f t := by
  rw [onManage, h]

theorem onManage_of_near (h : destination t p f = .near) : onManage p f t = t := by
  rw [onManage, h]

theorem acceptManage_of_manager (hp : p = .b) (hs : f.src.toNat = t.settings.manager) :
    acceptManage p f t = match decodeManage f.payload with
      | .short => reply 0 0 .range [] t
      | .unknown code tag => reply code tag .invalid [] t
      | .badLength code tag => reply code tag .range [] t
      | .request r => handleRequest r t := if_pos ⟨hp, hs⟩

theorem acceptManage_of_other (h : p ≠ .b ∨ f.src.toNat ≠ t.settings.manager) :
    acceptManage p f t = offerReport ⟨false, .link (.manageSource f.src p)⟩ t :=
  if_neg (fun ⟨hp, hs⟩ => h.elim (fun k => k hp) (fun k => k hs))

end

section
variable {r : Request} {t : State}

theorem handleRequest_of_direct (direct : r.body.direct = true) (unfenced : r.fence = false) :
    handleRequest r t = replyTo r (serve r.body t).1 (serve r.body t).2 t := if_pos ⟨direct, unfenced⟩

theorem handleRequest_of_queued (h : r.body.direct = false ∨ r.fence = true) :
    handleRequest r t = enqueue r t := by
  refine if_neg (fun ⟨direct, unfenced⟩ => ?_)
  rcases h with h | h
  · simp [h] at direct
  · simp [h] at unfenced

end

/-- Settles O50: by destination, source and payload. -/
theorem manageFrameIsServedOrQueued : Obligations.ManageFrameIsServedOrQueued := by
  unfold Obligations.ManageFrameIsServedOrQueued
  intro p bytes f s t h hk
  have taken {u : State} (hu : onManage p f t = u) : exec (.manage p bytes) s = .next (settle u) := by
    rw [exec_manage h hk, hu]
  have accepted {u : State} (hd : f.dest = 0) (hu : acceptManage p f t = u) :
      exec (.manage p bytes) s = .next (settle u) := taken ((onManage_of_toPart hd).trans hu)
  refine ⟨fun r hd hp hs request => ?_, fun hd other => accepted hd (acceptManage_of_other other),
    fun hd hp hs => ?_, fun _ across => taken (onManage_of_across across),
    fun _ near => taken (onManage_of_near near)⟩
  · have handled {u : State} (hu : handleRequest r t = u) :
        exec (.manage p bytes) s = .next (settle u) :=
      accepted hd (by rw [acceptManage_of_manager hp hs, request]; exact hu)
    refine ⟨fun direct unfenced => ⟨handled (handleRequest_of_direct direct unfenced), rfl, rfl, rfl⟩,
      fun queued room => handled ?_, fun queued full => handled ?_⟩
    · rw [handleRequest_of_queued queued]
      exact if_pos room
    · rw [handleRequest_of_queued queued]
      exact if_neg (Nat.not_lt.2 full)
  · refine ⟨fun short => accepted hd ?_, fun code tag unknown => accepted hd ?_,
      fun code tag bad => accepted hd ?_⟩
    · rw [acceptManage_of_manager hp hs, short]
    · rw [acceptManage_of_manager hp hs, unknown]
    · rw [acceptManage_of_manager hp hs, bad]

/-! ## Qualities packed four to a byte (Table 9-8) -/

theorem packQualities_length (l : List Nat) : (packQualities l).length = (l.length + 3) / 4 := by
  induction l using packQualities.induct with
  | case1 | case2 | case3 | case4 => simp [packQualities, byte1]
  | case5 a b c d rest ih =>
    simp only [packQualities, byte1, List.length_append, List.length_cons, List.length_nil, ih]
    omega

/-- A byte of four qualities gives each back. -/
theorem quality_of_byte {a b c d k : Nat} (ha : a < 4) (hb : b < 4) (hc : c < 4) (hd : d < 4) (hk : k < 4) :
    (BitVec.ofNat 8 (a * 64 + b * 16 + c * 4 + d)).toNat / 4 ^ (3 - k % 4) % 4 = [a, b, c, d].getD k 0 := by
  have byte : a * 64 + b * 16 + c * 4 + d < 2 ^ 8 := by omega
  rw [BitVec.toNat_ofNat, Nat.mod_eq_of_lt byte]
  interval_cases k <;> simp <;> omega

theorem packQualities_getD (l : List Nat) (small : ∀ q ∈ l, q < 4) (k : Nat)
    (hk : k < 4 * (packQualities l).length) :
    ((packQualities l).getD (k / 4) 0).toNat / 4 ^ (3 - k % 4) % 4 = l.getD k 0 := by
  induction l using packQualities.induct generalizing k with
  | case1 => simp [packQualities] at hk
  | case2 a =>
    have first : k < 4 := hk
    have := quality_of_byte (small a (by simp)) (b := 0) (c := 0) (d := 0) (by omega) (by omega) (by omega) first
    rw [Nat.div_eq_of_lt first]
    refine Eq.trans this ?_
    interval_cases k <;> rfl
  | case3 a b =>
    have first : k < 4 := hk
    have := quality_of_byte (small a (by simp)) (small b (by simp)) (c := 0) (d := 0) (by omega) (by omega) first
    rw [Nat.div_eq_of_lt first]
    refine Eq.trans this ?_
    interval_cases k <;> rfl
  | case4 a b c =>
    have first : k < 4 := hk
    have := quality_of_byte (small a (by simp)) (small b (by simp)) (small c (by simp)) (d := 0) (by omega) first
    rw [Nat.div_eq_of_lt first]
    refine Eq.trans this ?_
    interval_cases k <;> rfl
  | case5 a b c d rest ih =>
    by_cases first : k < 4
    · have := quality_of_byte (small a (by simp)) (small b (by simp)) (small c (by simp)) (small d (by simp)) first
      rw [Nat.div_eq_of_lt first]
      refine Eq.trans this ?_
      interval_cases k <;> rfl
    · obtain ⟨j, rfl⟩ := Nat.exists_eq_add_of_le' (Nat.not_lt.1 first)
      have length : j < 4 * (packQualities rest).length := by
        simp only [packQualities, byte1, List.length_append, List.length_cons, List.length_nil] at hk
        omega
      have := ih (fun q hq => small q (by simp [hq])) j length
      rw [Nat.add_div_right j (by decide), Nat.add_mod_right]
      exact this

theorem Quality.code_lt (q : Quality) : q.code < 4 := by cases q <;> decide

/-! ## READ_STATUS (Table 9-8) -/

/-- The bit of a class in the active set is its activity. -/
theorem getLsbD_activeSet (s : State) (c : FaultClass) :
    (activeSet s).getLsbD c.bit.val = (getClass s c).active := by
  have folded (l : List FaultClass) (acc : Byte) : (l.foldl (fun acc d =>
      if s.classes[d.bit].active then acc ||| (1 <<< d.bit.val) else acc) acc).getLsbD c.bit.val =
      (acc.getLsbD c.bit.val || l.any (fun d => s.classes[d.bit].active && decide (d = c))) := by
    induction l generalizing acc with
    | nil => simp
    | cons d l ih =>
      rw [List.foldl_cons, ih, List.any_cons, ← Bool.or_assoc]
      congr 1
      have bit : ((1 <<< d.bit.val : Nat) : Byte).getLsbD c.bit.val = decide (d = c) := by
        cases d <;> cases c <;> decide
      cases s.classes[d.bit].active with
      | true => rw [if_pos rfl, BitVec.getLsbD_or, bit, Bool.true_and]
      | false => rw [if_neg (by decide), Bool.false_and, Bool.or_false]
  rw [activeSet, folded, Bool.eq_iff_iff]
  have all : c ∈ FaultClass.all := by cases c <;> decide
  simp [List.any_eq_true, getClass, all]

theorem yesNo_eq (b : Bool) : yesNo b = [if b then 1 else 0] := by cases b <;> rfl

theorem mode_byte (m : Mode) : byte1 m.code = [match m with
    | .config => 0
    | .run => 1
    | .safe => 2] := by cases m <;> rfl

theorem bridge_byte (b : BridgeState) : byte1 b.code = [match b with
    | .awaiting => 0
    | .heard => 1
    | .silent => 2] := by cases b <;> rfl

theorem cause_byte (c : Option FaultCause) : byte1 (FaultCause.code c) = [match c with
    | none => 0
    | some .trip => 1
    | some .drive => 2] := by
  cases c with
  | none => rfl
  | some c => cases c <;> rfl

theorem zone_byte (o : Option Zone) : optByte (o.map (fun w => w.state.code)) = [match o with
    | some w => BitVec.ofNat 8 w.state.code
    | none => 0xFF] := by cases o <;> rfl

theorem serveEntry_of_within {t i part : Nat} {s : State} (index : indexOk t i = true)
    (within : 64 * part < recordLength t) : serve (.readEntry t i part) s =
      (.ok, [BitVec.ofNat 8 t] ++ beBytes 2 i ++
        [BitVec.ofNat 8 part, if recordLength t ≤ 64 * (part + 1) then 1 else 0] ++
        ((readBack s t i).drop (64 * part)).take 64) := by
  rw [serve, serveEntry, if_neg (by simp [index, within]), yesNo_eq]
  simp only [byte1, decide_eq_true_eq, List.append_assoc, List.cons_append, List.nil_append]

/-- READ_POINTS within its limits. -/
theorem servePoints_of_within {first count : Nat} {s : State} (low : 1 ≤ count) (high : count ≤ 16)
    (last : first + count ≤ 699) : serve (.readPoints first count) s =
      (.ok, beBytes 2 first ++ [BitVec.ofNat 8 count] ++
        packQualities ((List.range count).map (fun k => (getPoint s (first + k)).quality.code)) ++
        (List.range count).flatMap (fun k => beBytes 2 (getPoint s (first + k)).value.toNat ++
          beBytes 2 (getPoint s (first + k)).age)) := by
  rw [serve, servePoints, if_neg (by simp only [Config.lastPoint]; omega)]
  simp only [List.map_map, List.flatMap_map]
  rfl

theorem generalStatus_eq (s : State) : serve (.readStatus 0) s = (.ok, [0,
        (match s.mode with
          | .config => 0
          | .run => 1
          | .safe => 2), activeSet s,
        (match s.link.bridge with
          | .awaiting => 0
          | .heard => 1
          | .silent => 2)] ++
      [s.hold.length, s.manage.length, s.reports.length, s.link.safety.length, s.link.voice.length,
        s.link.forward.length, s.link.dToB.length].map (BitVec.ofNat 8) ++
      [(getAxis s 0).state.code, (getAxis s 1).state.code, (getAxis s 2).state.code,
        (getAxis s 3).state.code].map (BitVec.ofNat 8) ++
      (List.range 16).map (fun z => match Tab.get? s.zones z with
        | some w => BitVec.ofNat 8 w.state.code
        | none => 0xFF) ++
      [BitVec.ofNat 8 s.calls.length] ++ beBytes 2 s.link.errB ++ beBytes 2 s.link.errD) := by
  have zones : (List.range 16).flatMap (fun z => optByte ((Tab.get? s.zones z).map (fun w => w.state.code))) =
      (List.range 16).map (fun z => match Tab.get? s.zones z with
        | some w => BitVec.ofNat 8 w.state.code
        | none => 0xFF) := by
    rw [List.map_eq_flatMap]
    exact List.flatMap_congr (fun z _ => zone_byte _)
  rw [serve, serveStatus, if_pos rfl, generalStatus, mode_byte, bridge_byte, zones]
  simp only [byte1, allAxes, List.flatMap_cons, List.flatMap_nil, List.map_cons, List.map_nil,
    List.append_assoc, List.cons_append, List.nil_append]
  rfl

/-- Settles O51: each record by its fields. -/
theorem readsAnswerFromTheState : Obligations.ReadsAnswerFromTheState := by
  unfold Obligations.ReadsAnswerFromTheState
  intro s
  refine ⟨fun t i part index within => serveEntry_of_within index within, fun t i part h => if_pos h, ?_, ?_,
    generalStatus_eq s, getLsbD_activeSet s, ?_, ?_⟩
  · intro first count low high last
    refine ⟨_, servePoints_of_within low high last, ?_, fun k hk => ?_⟩
    · rw [packQualities_length, List.length_map, List.length_range]
    · rw [packQualities_getD _ (by simp [Quality.code_lt]) k hk]
      by_cases inside : k < count
      · rw [if_pos inside]
        simp only [List.getD_eq_getElem?_getD, List.getElem?_map, List.getElem?_range inside, Option.map_some,
          Option.getD_some]
        cases (getPoint s (first + k)).quality <;> rfl
      · rw [if_neg inside, List.getD_eq_default _ _ (by simpa using inside)]
  · intro first count h
    refine if_pos ?_
    simp only [Config.lastPoint]
    omega
  · rintro a x rfl
    have id : axisId (a.val + 1 - 1) = a := Fin.ext (Nat.mod_eq_of_lt a.isLt)
    rw [serve, serveStatus, if_neg (by omega), if_pos (by omega), axisStatus, id, cause_byte, yesNo_eq]
    simp only [byte1, Axis.depth, List.append_assoc, List.cons_append, List.nil_append] <;> rfl
  · intro n high
    rw [serve, serveStatus, if_neg (by omega), if_neg (by omega)]

end Sys2Proof.Machine

/-! # Proofs: the voice tick and the timers of calls (R155 to R159) -/

namespace Sys2Proof.Machine

open Sys2Proof

/-! ## Lists in which one call is concerned -/

section
variable {older newer : List Call} {c : Call} {q : Call → Bool}

theorem filter_one (others : ∀ b ∈ older ++ newer, q b = false) (own : q c = true) :
    (older ++ c :: newer).filter q = [c] := by
  rw [List.filter_append, List.filter_cons_of_pos own,
    List.filter_eq_nil_iff.2 (fun b hb => by simp [others b (List.mem_append_left _ hb)]),
    List.filter_eq_nil_iff.2 (fun b hb => by simp [others b (List.mem_append_right _ hb)])]
  rfl

theorem map_one {β : Type} {f g : Call → β} (others : ∀ b ∈ older ++ newer, f b = g b) :
    (older ++ c :: newer).map f = older.map g ++ f c :: newer.map g := by
  rw [List.map_append, List.map_cons,
    List.map_congr_left (fun b hb => others b (List.mem_append_left _ hb)),
    List.map_congr_left (fun b hb => others b (List.mem_append_right _ hb))]

end

/-! ## Frames beside the list of calls (R14, R156) -/

theorem kickD_withCalls (cs : List Call) (s : State) :
    kickD { s with calls := cs } = { kickD s with calls := cs } := by
  unfold kickD
  dsimp only
  cases s.link.dTx with
  | some f => rfl
  | none =>
    cases s.link.safety with
    | cons f rest => rfl
    | nil =>
      cases s.link.voice with
      | cons f rest => rfl
      | nil => cases s.link.forward <;> rfl

theorem offerVoice_withCalls (f : Frame) (cs : List Call) (s : State) :
    offerVoice f { s with calls := cs } = { offerVoice f s with calls := cs } := by
  by_cases room : s.link.voice.length < Config.voiceCap
  · rw [offerVoice_of_room f room, offerVoice_of_room f (s := { s with calls := cs }) room]
    exact kickD_withCalls cs { s with link := { s.link with voice := s.link.voice ++ [f] } }
  · rw [offerVoice_of_full f (Nat.not_lt.1 room), offerVoice_of_full f (s := { s with calls := cs })
      (Nat.not_lt.1 room)]

theorem foldl_of_quiet {α β : Type} {f : β → α → β} {l : List α} (quiet : ∀ x ∈ l, ∀ t, f t x = t) (s : β) :
    l.foldl f s = s := by
  induction l with
  | nil => rfl
  | cons x l ih =>
    rw [List.foldl_cons, quiet x List.mem_cons_self]
    exact ih (fun y hy => quiet y (List.mem_cons_of_mem x hy))

/-- One call alone takes a step: its frame, if it makes one, is offered. -/
theorem produce_one {older newer : List Call} {c d : Call} {out : Option Frame}
    {f : Call → Call × Option Frame} {s : State} (hs : s.calls = older ++ c :: newer)
    (others : ∀ b ∈ older ++ newer, f b = (b, none)) (own : f c = (d, out)) :
    produce f s = out.elim { s with calls := older ++ d :: newer }
      (fun fr => offerVoice fr { s with calls := older ++ d :: newer }) := by
  have stepped : s.calls.map f = older.map (fun b => (b, none)) ++ (d, out) :: newer.map (fun b => (b, none)) := by
    rw [hs, map_one others, own]
  have calls : (s.calls.map f).map (·.1) = older ++ d :: newer := by
    rw [stepped]
    simp [Function.comp_def]
  unfold produce
  dsimp only
  rw [calls, stepped, List.foldl_append, List.foldl_cons, foldl_of_quiet (l := older.map _),
    foldl_of_quiet (l := newer.map _)]
  · cases out <;> rfl
  all_goals
    intro r hr t
    obtain ⟨b, -, rfl⟩ := List.mem_map.1 hr
    rfl

/-! ## Ends and entries to LIVE -/

theorem endAll_of_none {q : Call → Bool} (why : EndReason) {s : State} (h : ∀ c ∈ s.calls, q c = false) :
    endAll q why s = s := by
  rw [endAll, List.filter_eq_nil_iff.2 (fun c hc => by simp [h c hc])]
  rfl

theorem endAll_of_one {older newer : List Call} {c : Call} {q : Call → Bool} (why : EndReason) {s : State}
    (hs : s.calls = older ++ c :: newer) (others : ∀ b ∈ older ++ newer, q b = false) (own : q c = true) :
    endAll q why s = recompute (callReport c (.ended why) 0 { s with calls := older ++ newer }) := by
  rw [endAll, hs, filter_one others own, List.foldl_cons, List.foldl_nil]
  exact endFirst_of_split why hs (fun b hb => others b (List.mem_append_left _ hb)) own

/-- R155: a call whose chime is over. -/
def Call.madeLive (c : Call) : Call := { c.goLive with chime := .finished }

/-- R155: a selected call whose chime is over is LIVE, any other as it was. -/
def Call.finished (sel : Call → Bool) (c : Call) : Call := if sel c && c.chimeOver then c.madeLive else c

theorem finishChimes_eq (sel : Call → Bool) (s : State) : finishChimes sel s =
    (s.calls.filter (fun c => sel c && c.chimeOver)).foldl (fun t c => callReport c.madeLive .live c.owned t)
      { s with calls := s.calls.map (Call.finished sel) } := rfl

theorem Call.finished_of_not {sel : Call → Bool} {c : Call} (h : (sel c && c.chimeOver) = false) :
    c.finished sel = c := if_neg (by simp [h])

theorem finishChimes_of_none {sel : Call → Bool} {s : State}
    (h : ∀ c ∈ s.calls, (sel c && c.chimeOver) = false) : finishChimes sel s = s := by
  have same : s.calls.map (Call.finished sel) = s.calls :=
    (List.map_congr_left (fun c hc => Call.finished_of_not (h c hc))).trans (List.map_id' s.calls)
  rw [finishChimes_eq, List.filter_eq_nil_iff.2 (fun c hc => by simp [h c hc]), same]
  rfl

theorem finishChimes_of_one {older newer : List Call} {c : Call} {sel : Call → Bool} {s : State}
    (hs : s.calls = older ++ c :: newer) (others : ∀ b ∈ older ++ newer, (sel b && b.chimeOver) = false)
    (own : (sel c && c.chimeOver) = true) :
    finishChimes sel s = callReport c.madeLive .live c.owned
      { s with calls := older ++ c.madeLive :: newer } := by
  have live : c.finished sel = c.madeLive := if_pos own
  rw [finishChimes_eq, hs, filter_one others own,
    map_one (f := Call.finished sel) (g := id) (fun b hb => Call.finished_of_not (others b hb)), live, List.map_id, List.map_id]
  rfl

theorem recomputed_number (old : ZoneSet) (c : Call) : (c.recomputed old).1.number = c.number := by
  unfold Call.recomputed Call.afterOwned Call.goLive
  split
  · rfl
  · cases c.state <;> dsimp only <;> split_ifs <;> rfl

theorem assignOwners_numbers (before cs : List Call) :
    (assignOwners before cs).map (·.number) = cs.map (·.number) := by
  induction cs generalizing before with
  | nil => rfl
  | cons c cs ih => rw [assignOwners, List.map_cons, ih, List.map_cons]

/-- A recompute leaves the numbers in the list as they are. -/
theorem recompute_numbers (s : State) : (recompute s).calls.map (·.number) = s.calls.map (·.number) := by
  rw [recompute_calls, ← assignOwners_numbers [] s.calls]
  have same := assignOwners_length [] s.calls
  generalize assignOwners [] s.calls = owned at *
  generalize s.calls = cs at *
  induction cs generalizing owned with
  | nil => rw [List.length_eq_zero_iff.1 same]; rfl
  | cons c cs ih =>
    cases owned with
    | nil => cases same
    | cons d owned =>
      simp only [List.zipWith_cons_cons, List.map_cons, recomputed_number]
      rw [ih owned (Nat.succ.inj same)]

theorem isLost_of_voice {c : Call} {k limit : Nat} (source : c.source = .voice k) :
    c.isLost limit = true ↔ c.state = .live ∧ limit ≤ c.age := by
  unfold Call.isLost
  rw [source]
  cases c.state <;> simp

theorem isLost_of_tone {c : Call} {k limit : Nat} (source : c.source = .tone k) : c.isLost limit = false := by
  unfold Call.isLost
  rw [source]
  cases c.state <;> rfl

theorem isLost_of_chime {c : Call} {limit : Nat} (state : c.state = .chime) : c.isLost limit = false := by
  unfold Call.isLost
  rw [state]

theorem onTick_of_voice {c : Call} {k : Nat} (s : State) (source : c.source = .voice k) (state : c.state = .live) :
    Call.onTick s c = ({ c with age := min 5000 (c.age + 4) }, none) := by
  unfold Call.onTick
  rw [source, state]

theorem onTick_of_chime {c : Call} (s : State) (state : c.state = .chime) (owned : c.owned ≠ 0)
    (early : c.pos < 400) : Call.onTick s c = ({ c with pos := c.pos + 1, block := c.block + 1 },
      some (voiceFrame s c 0 (toneBlock 0 (32 * c.pos)))) := by
  unfold Call.onTick
  rw [state]
  exact if_neg (by simp only [Config.chimeBlocks, not_or, not_le]; exact ⟨owned, early⟩)

/-! ## One call's share of a tick -/

section
variable {s : State} {older newer : List Call} {c : Call} (hs : s.calls = older ++ c :: newer)
  (alone : ∀ b ∈ older ++ newer, b.number ≠ c.number)
include hs alone

/-- R155: the 400th chime block. -/
theorem tickCalls_of_chime (state : c.state = .chime) (owned : c.owned ≠ 0) (last : c.pos = 399) {d : Call}
    (hd : d = { c with state := .live, chime := .finished, age := 0, toneCount := 0, pos := 400
                       block := c.block + 1 }) :
    tickCalls (fun b => decide (b.number = c.number)) s = callReport d .live c.owned (offerVoice
      (voiceFrame s c 0 (toneBlock 0 12768)) { s with calls := older ++ d :: newer }) := by
  have stepped := onTick_of_chime s state owned (by rw [last]; decide)
  rw [last] at stepped
  unfold tickCalls
  rw [produce_one hs (fun b hb => if_neg (by simpa using alone b hb)) ((if_pos (by simp)).trans stepped)]
  rw [Option.elim_some, offerVoice_withCalls, endAll_of_none, finishChimes_of_one (older := older) (newer := newer)
    (c := { c with pos := 400, block := c.block + 1 }) rfl
    (fun b hb => by simp [alone b hb]) (by simp [Call.chimeOver, state, Config.chimeBlocks]),
    offerVoice_withCalls _ (older ++ d :: newer) s, hd]
  · rfl
  · intro b hb
    rcases List.mem_append.1 hb with hb | hb
    · simp [alone b (List.mem_append_left _ hb)]
    · rcases List.mem_cons.1 hb with rfl | hb
      · exact (congrArg _ (isLost_of_chime state)).trans (Bool.and_false _)
      · simp [alone b (List.mem_append_right _ hb)]

/-- R159: the last step of the age. -/
theorem tickCalls_of_lost {k : Nat} (state : c.state = .live) (source : c.source = .voice k)
    (lost : s.settings.sourceLost ≤ min 5000 (c.age + 4)) :
    tickCalls (fun b => decide (b.number = c.number)) s = recompute
      (callReport c (.ended .sourceLost) 0 { s with calls := older ++ newer }) := by
  unfold tickCalls
  rw [produce_one hs (fun b hb => if_neg (by simpa using alone b hb))
    ((if_pos (by simp)).trans (onTick_of_voice s source state))]
  rw [Option.elim_none, endAll_of_one (older := older) (newer := newer) (c := { c with age := min 5000 (c.age + 4) }) .sourceLost rfl
    (fun b hb => by simp [alone b hb])
    (by simpa using (isLost_of_voice (c := { c with age := min 5000 (c.age + 4) }) source).2 ⟨state, lost⟩), finishChimes_of_none]
  · rfl
  · intro b hb
    have number : b.number ∈ (older ++ newer).map (·.number) := by
      have := List.mem_map_of_mem (f := (·.number)) hb
      rwa [recompute_numbers, callReport_calls] at this
    obtain ⟨e, he, same⟩ := List.mem_map.1 number
    simp [← same, alone e he]

end

/-- Settles O48: the voice tick by its definition, and one call's share of it. -/
theorem callTimersAct : Obligations.CallTimersAct := by
  unfold Obligations.CallTimersAct
  refine ⟨?_, fun s c => ⟨fun k source => isLost_of_voice source, fun k source => isLost_of_tone source,
    fun k source state => onTick_of_voice s source state⟩, ?_⟩
  · intro s t u ht hu
    have tick : exec .voiceTick s = .next (settle (tickCalls (fun _ => true) s)) := rfl
    have produced : produce (fun c => if true then Call.onTick s c else (c, none)) s = t := by
      rw [ht]
      unfold produce
      simp only [if_true, List.map_map]
      rfl
    have chimed (c : Call) : (c.chimeOver = true) = (c.state = .chime ∧ 400 ≤ c.pos) := by
      rw [Call.chimeOver, Bool.and_eq_true, decide_eq_true_iff, decide_eq_true_iff]
      rfl
    rw [tick]
    unfold tickCalls
    rw [produced]
    simp only [Bool.true_and]
    rw [← hu]
    unfold finishChimes
    simp only [Bool.true_and, chimed]
    rfl
  · intro s older newer c d hs alone
    refine ⟨fun state owned last hd => ?_, fun k state source lost => ?_, fun expired => ?_⟩
    · have chime : exec (.chimeEnd c.number) s = .next (settle (chimeEnds c.number s)) := rfl
      rw [chime, chimeEnds, if_pos, tickCalls_of_chime hs alone state owned last hd]
      exact List.any_eq_true.2 ⟨c, by simp [hs], decide_eq_true
        ⟨rfl, state, owned, by rw [last]; decide⟩⟩
    · have silenced : exec (.sourceLost c.number) s = .next (settle (sourceLost c.number s)) := rfl
      rw [silenced, sourceLost, if_pos, tickCalls_of_lost hs alone state source lost]
      have lostNow : (Call.onTick s c).1.isLost s.settings.sourceLost = true := by
        rw [onTick_of_voice s source state]
        exact (isLost_of_voice (c := { c with age := min 5000 (c.age + 4) }) source).2 ⟨state, lost⟩
      simp [hs, lostNow]
    · have duration : exec (.callDurationExpiry c.number) s = .next (settle (durationExpires c.number s)) := rfl
      rw [duration, durationExpires, endFirst_of_split .duration hs
        (fun b hb => by simp [alone b (List.mem_append_left _ hb)]) (by simp [expired])]

end Sys2Proof.Machine

/-! # Proofs: orders seen by doors, the close limit and what a derivation reports (R111 to R120) -/

namespace Sys2Proof.Machine

open Sys2Proof

/-! ## The doors beside the axes

What the axes do, and what mode control makes of a fault, leaves every door as it is. -/

structure SameDoors (s t : State) : Prop where
  doors : t.doors = s.doors

section
variable {a b : AxisId} {s t u : State}

theorem SameDoors.refl (s : State) : SameDoors s s := ⟨rfl⟩

theorem SameDoors.trans (h : SameDoors s t) (g : SameDoors t u) : SameDoors s u :=
  ⟨g.doors.trans h.doors⟩

theorem Beside.sameDoors (h : Beside s t) : SameDoors s t := ⟨h.doors⟩

theorem SameDoors.foldl {α : Type} {f : State → α → State} (h : ∀ t x, SameDoors t (f t x)) (l : List α)
    (s : State) : SameDoors s (l.foldl f s) := by
  induction l generalizing s with
  | nil => exact .refl s
  | cons x l ih => exact (h s x).trans (ih (f s x))

theorem sameDoors_setAxis (a : AxisId) (x : Axis) (s : State) : SameDoors s (setAxis a x s) := ⟨rfl⟩

theorem sameDoors_endRun (b : AxisId) (o : MoveOutcome) (rest : AxisState) (s : State) :
    SameDoors s (endRun b o rest s) := by
  unfold endRun
  dsimp only
  split
  · exact .refl s
  · exact (sameDoors_setAxis b _ s).trans (beside_reportMove _ _ _ _ _).sameDoors

theorem sameDoors_beginRun (c : Current) (q : Phase) (b : AxisId) (s : State) :
    SameDoors s (beginRun c q b s) := by
  unfold beginRun
  dsimp only
  split
  · exact .refl s
  · split
    · exact (sameDoors_setAxis b _ s).trans ((beside_publishMotion b _).trans (beside_tellMoving b _)).sameDoors
    · exact .refl s

theorem sameDoors_endAtStart (a : AxisId) (m : Move) (rest : List Move) (o : MoveOutcome) (s : State) :
    SameDoors s (endAtStart a m rest o s) :=
  (sameDoors_setAxis a _ s).trans (beside_reportMove _ _ _ _ _).sameDoors

theorem sameDoors_startNext (n : Nat) (a : AxisId) (s : State) : SameDoors s (startNext n a s).1 := by
  induction n generalizing s with
  | zero => exact .refl s
  | succ n ih =>
    unfold startNext
    dsimp only
    split
    · have ended (x : Axis) (m : Move) (rest : List Move) (o : MoveOutcome) :
          SameDoors s (startNext n a (endAtStart a m rest o (setAxis a x s))).1 :=
        (sameDoors_setAxis a x s).trans ((sameDoors_endAtStart a m rest o _).trans (ih _))
      split
      · split
        · exact ended _ _ _ _
        · split
          · exact ended _ _ _ _
          · split
            · exact ended _ _ _ _
            · exact sameDoors_setAxis a _ s
      · exact .refl s
    · exact .refl s

theorem sameDoors_startPending (moving : List AxisId) (a : AxisId) (s : State) :
    SameDoors s (startPending moving a s) := by
  unfold startPending
  have started := (sameDoors_startNext (Config.pendingCap + 1) a s).trans (beside_publishMotion a _).sameDoors
  dsimp only
  split
  · exact started
  · split
    · exact started.trans (SameDoors.foldl (fun t b => sameDoors_beginRun _ _ b t) _ _)
    · exact (started.trans (beside_tellMoving a _).sameDoors).trans
        (SameDoors.foldl (fun t b => sameDoors_beginRun _ _ b t) _ _)

theorem sameDoors_finishMove (a : AxisId) (o : MoveOutcome) (namer : Option AxisId) (rest : AxisState)
    (s : State) : SameDoors s (finishMove a o namer rest s) := by
  unfold finishMove
  dsimp only
  split
  · exact .refl s
  next c _ =>
    have ended := ((sameDoors_setAxis a ((getAxis s a).rested o rest) s).trans
      (beside_reportMove a c.move.tag o (getAxis s a).cp _).sameDoors).trans
      (SameDoors.foldl (fun t d => sameDoors_endRun d (runOutcome o namer rest d).1
        (runOutcome o namer rest d).2 t) (runningFollowers s a) _)
    exact ((ended.trans (sameDoors_startPending _ a _)).trans
      (Beside.foldl (fun t d => beside_publishMotion d t) _ _).sameDoors).trans
      (Beside.foldl (fun t d => beside_tellIfAtRest d t) _ _).sameDoors

theorem sameDoors_followPhase (a : AxisId) (st : AxisState) (q : Phase) (s : State) :
    SameDoors s (followPhase a st q s) :=
  SameDoors.foldl (fun t b => (sameDoors_setAxis b { getAxis t b with state := st, phase := q } t).trans
    (beside_publishAxis b [0, 1] _).sameDoors) _ s

theorem sameDoors_slowStop (a : AxisId) (o : MoveOutcome) (namer : Option AxisId) (s : State) :
    SameDoors s (slowStop a o namer s) := by
  unfold slowStop
  dsimp only
  split
  · split
    · exact sameDoors_finishMove a _ _ _ s
    · exact ((sameDoors_setAxis a _ s).trans (beside_publishMotion a _).sameDoors).trans
        (sameDoors_followPhase a _ _ _)
  · exact .refl s

theorem sameDoors_flushPending (a : AxisId) (s : State) : SameDoors s (flushPending a s) := by
  unfold flushPending
  dsimp only
  split
  · exact .refl s
  · exact (sameDoors_setAxis a _ s).trans (Beside.foldl (fun t _ => beside_reportMove _ _ _ _ t) _ _).sameDoors

theorem sameDoors_announceAxis (o : MoveOutcome) (a : AxisId) (s : State) :
    SameDoors s (announceAxis o a s) := by
  unfold announceAxis
  dsimp only
  split
  · exact .refl s
  · split
    · exact sameDoors_setAxis a _ s
    · split
      · exact (((sameDoors_setAxis a _ s).trans (sameDoors_flushPending a _)).trans
          (sameDoors_slowStop a _ _ _)).trans (beside_publishMotion a _).sameDoors
      · exact ((sameDoors_setAxis a _ s).trans (sameDoors_slowStop a _ _ _)).trans
          (beside_publishMotion a _).sameDoors

theorem sameDoors_enterSafe (cause : ModeCause) (s : State) : SameDoors s (enterSafe cause s) := by
  have refused : SameDoors s (refuseHeld .mode { s with mode := .safe }) :=
    ⟨(beside_refuseHeld .mode { s with mode := .safe }).doors⟩
  unfold enterSafe tellSafe
  generalize refuseHeld .mode { s with mode := .safe } = u at *
  exact (refused.trans (SameDoors.foldl (fun t a => sameDoors_announceAxis .safe a t) allAxes u)).trans
    (beside_announceMode s.mode .safe cause _).sameDoors

theorem sameDoors_classesChanged (cs : List FaultClass) (who : Contributor) (s : State) :
    SameDoors s (classesChanged cs who s) := by
  unfold classesChanged
  dsimp only
  split
  · exact .refl s
  · refine ((beside_writePoints _ s).trans (Beside.foldl (fun t c => beside_alarm _ t) cs _)).sameDoors.trans
      (SameDoors.foldl (fun t c => ?_) cs _)
    split
    · exact sameDoors_enterSafe _ t
    · exact .refl t

theorem sameDoors_tell (cs : List FaultClass) (who : Contributor) (s : State) : SameDoors s (tell cs who s) := by
  unfold tell
  split
  · exact .refl s
  · exact (SameDoors.foldl (fun t c => (⟨rfl⟩ : SameDoors t (recount c t))) cs s).trans
      (sameDoors_classesChanged _ who _)

end

/-! ## What a derivation leaves (R111) -/

theorem settleDoor_doors (d : Nat) (old x : Door) (cause : DoorCause) (s : State) :
    (settleDoor d old x cause s).doors = Tab.set s.doors d (deriveDoor s x) := by
  unfold settleDoor
  dsimp only
  have reported : SameDoors (setDoor d (deriveDoor s x) s)
      (if (deriveDoor s x).state = old.state then setDoor d (deriveDoor s x) s
        else reportDoor d old (deriveDoor s x) cause
          (writePoints [(Config.doorPoint d, (deriveDoor s x).state.code)] (setDoor d (deriveDoor s x) s))) := by
    split
    · exact .refl _
    · exact ((beside_writePoints _ _).trans (beside_offerReport _ _)).sameDoors
  split
  · exact reported.doors
  · exact (reported.trans (sameDoors_tell _ _ _)).doors

theorem doorSees_of_valid {d : Nat} {x : Door} {s : State} (isClose : Bool) (hx : Tab.get? s.doors d = some x) :
    doorSees isClose d s = settleDoor d x (seeOrder s isClose x) .orderSeen s := by
  rw [doorSees, hx]

/-- An order seen by one door leaves every other as it is. -/
theorem doorSees_other {d e : Nat} (isClose : Bool) (s : State) (h : e ≠ d) :
    Tab.get? (doorSees isClose d s).doors e = Tab.get? s.doors e := by
  unfold doorSees
  split
  · rw [settleDoor_doors, Tab.get?_set_other _ _ _ _ h]
  · rfl

theorem doorSees_same {d : Nat} {x : Door} {s : State} (isClose : Bool) (hx : Tab.get? s.doors d = some x) :
    Tab.get? (doorSees isClose d s).doors d = some (deriveDoor s (seeOrder s isClose x)) := by
  rw [doorSees_of_valid isClose hx, settleDoor_doors, Tab.get?_set_same]

/-! ## Proofs that stand (R109) -/

/-- Two states in which the proofs of a door read the same. -/
def SameProofs (c : DoorCfg) (s t : State) : Prop :=
  proof t c.closedPoint = proof s c.closedPoint ∧ proof t c.openPoint = proof s c.openPoint

theorem Keeps.sameProofs {s t : State} (h : Keeps s t) {c : DoorCfg} (hc : c.closedPoint ≤ 511)
    (ho : c.openPoint ≤ 511) : SameProofs c s t := by
  unfold SameProofs proof
  rw [h.points _ hc, h.points _ ho]
  exact ⟨rfl, rfl⟩

section
variable {s t : State} {c : DoorCfg} (h : SameProofs c s t)
include h

theorem SameProofs.closed : closedByProof t c = closedByProof s c := by
  rw [closedByProof, closedByProof, h.1, h.2]

theorem SameProofs.opened : openByProof t c = openByProof s c := by
  rw [openByProof, openByProof, h.1, h.2]

theorem SameProofs.both : bothProofs t c = bothProofs s c := by
  rw [bothProofs, bothProofs, h.1, h.2]

end

theorem SameProofs.derive {s t : State} {x : Door} (h : SameProofs x.cfg s t) :
    deriveDoor t x = deriveDoor s x := by
  unfold deriveDoor
  rw [h.closed, h.opened, h.both, h.1, h.2]

theorem SameProofs.seeOrder {s t : State} {x : Door} (h : SameProofs x.cfg s t) (isClose : Bool) :
    seeOrder t isClose x = seeOrder s isClose x := by
  unfold Machine.seeOrder
  rw [h.closed, h.opened]

theorem seeOrder_close {s : State} {x : Door} : seeOrder s true x =
    if closedByProof s x.cfg then { x with jam := false, inFlight := .none, remaining := 0 }
    else { x with jam := false, inFlight := .close, remaining := x.cfg.limit } := rfl

theorem seeOrder_open {s : State} {x : Door} : seeOrder s false x =
    if openByProof s x.cfg then { x with jam := false, inFlight := .none, remaining := 0 }
    else { x with jam := false, inFlight := .opening, remaining := 0 } := rfl

/-! ## The doors of a table in turn -/

theorem Tab.get?_of_mem {α : Type} {t : Tab α} {e : Nat × α} (sorted : Tab.Sorted t = true) (he : e ∈ t) :
    Tab.get? t e.1 = some e.2 := by
  induction t with
  | nil => exact absurd he List.not_mem_nil
  | cons c t ih =>
    obtain ⟨above, rest⟩ := (Tab.sorted_cons c.1 c.2 t).1 sorted
    rcases List.mem_cons.1 he with rfl | he
    · exact (Tab.get?_cons _ _ _ _).trans (if_pos rfl)
    · exact ((Tab.get?_cons _ _ _ _).trans (if_neg (Nat.ne_of_lt (above e he)))).trans (ih rest he)

/-- An operation on one door: it leaves every other door as it is, and what it makes of its own door
rests on that door and the field points alone. -/
structure Doorwise (f : Nat → State → State) (g : State → Door → Door) : Prop where
  keeps : ∀ d s, Keeps s (f d s)
  other : ∀ d e s, e ≠ d → Tab.get? (f d s).doors e = Tab.get? s.doors e
  same : ∀ d x s, Tab.get? s.doors d = some x → Tab.get? (f d s).doors d = some (g s x)
  congr : ∀ s t x, SameProofs x.cfg s t → g t x = g s x

theorem doorwise_doorSees (isClose : Bool) :
    Doorwise (doorSees isClose) (fun s x => deriveDoor s (seeOrder s isClose x)) where
  keeps d s := (keepsAll_doorSees isClose d s).toKeeps
  other _ _ s h := doorSees_other isClose s h
  same _ _ _ hx := doorSees_same isClose hx
  congr s t x proofs := by
    rw [proofs.seeOrder]
    exact SameProofs.derive (by rwa [seeOrder_cfg])

/-- The operation on each door of a list in turn: the doors beside the list are as they were, and each of
it is what the operation makes of it. -/
theorem Doorwise.foldl {f : Nat → State → State} {g : State → Door → Door} (h : Doorwise f g)
    (l : List (Nat × Door)) (apart : (l.map (·.1)).Nodup) : ∀ s : State,
    (∀ e ∈ l, Tab.get? s.doors e.1 = some e.2) →
    (∀ d, d ∉ l.map (·.1) → Tab.get? (l.foldl (fun u e => f e.1 u) s).doors d = Tab.get? s.doors d) ∧
    (∀ e ∈ l, e.2.cfg.closedPoint ≤ 511 → e.2.cfg.openPoint ≤ 511 →
      Tab.get? (l.foldl (fun u e => f e.1 u) s).doors e.1 = some (g s e.2)) := by
  induction l with
  | nil => exact fun s _ => ⟨fun _ _ => rfl, fun e he => absurd he List.not_mem_nil⟩
  | cons c l ih =>
    intro s present
    rw [List.map_cons, List.nodup_cons] at apart
    obtain ⟨fresh, apart⟩ := apart
    have named (e : Nat × Door) (he : e ∈ l) : e.1 ≠ c.1 := fun same =>
      fresh (same ▸ List.mem_map_of_mem (f := (·.1)) he)
    obtain ⟨others, done⟩ := ih apart (f c.1 s) (fun e he => by
      rw [h.other c.1 e.1 s (named e he)]
      exact present e (List.mem_cons_of_mem c he))
    rw [List.foldl_cons]
    refine ⟨fun d hd => ?_, fun e he closed opened => ?_⟩
    · rw [List.map_cons, List.mem_cons, not_or] at hd
      rw [others d hd.2, h.other c.1 d s hd.1]
    · rcases List.mem_cons.1 he with rfl | he
      · rw [others e.1 fresh, h.same e.1 e.2 s (present e List.mem_cons_self)]
      · rw [done e he closed opened, h.congr s _ e.2 ((h.keeps c.1 s).sameProofs closed opened)]

/-- The operation on those doors of a table that meet a test. -/
theorem Doorwise.foldl_filter {f : Nat → State → State} {g : State → Door → Door} (h : Doorwise f g)
    {s : State} (test : Nat × Door → Bool) (sorted : Tab.Sorted s.doors = true) {d : Nat} {x : Door}
    (hx : Tab.get? s.doors d = some x) :
    (test (d, x) = false →
      Tab.get? ((s.doors.filter test).foldl (fun u e => f e.1 u) s).doors d = some x) ∧
    (test (d, x) = true → x.cfg.closedPoint ≤ 511 → x.cfg.openPoint ≤ 511 →
      Tab.get? ((s.doors.filter test).foldl (fun u e => f e.1 u) s).doors d = some (g s x)) := by
  have listed (e : Nat × Door) (he : e ∈ s.doors) : Tab.get? s.doors e.1 = some e.2 :=
    Tab.get?_of_mem sorted he
  have rising := (Tab.sorted_iff _).1 (Tab.sorted_filter s.doors test sorted)
  have apart : ((s.doors.filter test).map (·.1)).Nodup :=
    List.pairwise_map.2 (rising.imp fun below => Nat.ne_of_lt below)
  obtain ⟨others, done⟩ := h.foldl (s.doors.filter test) apart s
    (fun e he => listed e (List.mem_of_mem_filter he))
  refine ⟨fun not => ?_, fun hs closed opened =>
    done (d, x) (List.mem_filter.2 ⟨Tab.get?_mem hx, hs⟩) closed opened⟩
  rw [others d (fun hd => ?_), hx]
  obtain ⟨e, he, rfl⟩ := List.mem_map.1 hd
  obtain ⟨inTable, hs⟩ := List.mem_filter.1 he
  have same : e.2 = x := Option.some.inj ((listed e inTable).symm.trans hx)
  rw [← same, hs] at not
  exact absurd not (by decide)

/-! ## Orders seen (R112) -/

theorem orderSent_of_other {f : Frame} {s : State} (h : f.kind ≠ .order ∨ (f.code ≠ 0x10 ∧ f.code ≠ 0x11)) :
    orderSent f s = s := by
  refine if_neg (fun ⟨kind, code⟩ => ?_)
  rcases h with h | ⟨close, opened⟩
  · exact h kind
  · exact code.elim close opened

theorem orderSent_of_door {f : Frame} {s : State} {sees : Nat × Door → Bool} (kind : f.kind = .order)
    (code : f.code = 0x10 ∨ f.code = 0x11) (hs : ∀ e, sees e = true ↔ f.device = e.2.cfg.device ∧
      (f.dest.toNat = e.2.cfg.station ∨ f.dest = 63)) :
    orderSent f s = (s.doors.filter sees).foldl (fun u e => doorSees (decide (f.code = 0x10)) e.1 u) s := by
  have same : (fun e : Nat × Door => seenBy f e.2) = sees := by
    funext e
    rw [Bool.eq_iff_iff, hs, seenBy]
    simp [or_comm]
  rw [orderSent, if_pos ⟨kind, code⟩, ← same, List.foldl_filter]

theorem seeOrder_of_code {f : Frame} {s : State} {x : Door} (code : f.code = 0x10 ∨ f.code = 0x11) :
    seeOrder s (decide (f.code = 0x10)) x =
      if f.code = 0x10 ∧ closedByProof s x.cfg = false then
        { x with jam := false, inFlight := .close, remaining := x.cfg.limit }
      else if f.code = 0x11 ∧ openByProof s x.cfg = false then
        { x with jam := false, inFlight := .opening, remaining := 0 }
      else { x with jam := false, inFlight := .none, remaining := 0 } := by
  rcases code with code | code
  · rw [code]
    cases hc : closedByProof s x.cfg <;> simp [seeOrder, hc]
  · rw [code]
    cases ho : openByProof s x.cfg <;> simp [seeOrder, ho]

/-! ## What a change of state reports (R111, R114, R115, R119, R120) -/

theorem isBreach_iff (s : State) (x n : Door) : isBreach s x n = true ↔
    (Tab.get? s.zones n.cfg.zone).map (fun w => w.state) = some .secured ∧ x.state = .closed ∧
      (n.state = .isOpen ∨ n.state = .moving ∨ n.state = .opening ∨
        (n.state = .unknown ∧ n.disagree = true)) := by
  rw [isBreach, Bool.and_eq_true, Bool.and_eq_true, decide_eq_true_iff, decide_eq_true_iff, and_assoc]
  refine and_congr_right (fun _ => and_congr_right (fun _ => ?_))
  cases n.state <;> simp

theorem doorClasses_eq (x n : Door) : doorClasses x n =
    (if x.state = .jammed ↔ n.state = .jammed then [] else [.doorJammed]) ++
      (if x.disagree = n.disagree then [] else [.doorSensor]) := by
  simp only [doorClasses, decide_eq_decide]

theorem zones_writePoints (ws : List (Nat × Nat)) (s : State) : (writePoints ws s).zones = s.zones := by
  obtain ⟨due, -, image⟩ := writePoints_eq ws s
  obtain ⟨es, he⟩ := setImage_cases (due.foldl (fun t w => putPoint t w.1 ⟨BitVec.ofNat 16 w.2, .fresh, 0⟩)
    s.points) (due.map (·.1)) s
  rw [image, he]

theorem isBreach_congr {s t : State} (h : t.zones = s.zones) (x n : Door) :
    isBreach t x n = isBreach s x n := by
  rw [isBreach, isBreach, h]

/-- The state before mode control is told: the door kept and, where its state changed, its point written
and its report made. -/
theorem settleDoor_eq (d : Nat) (x y : Door) (cause : DoorCause) (s : State) :
    settleDoor d x y cause s =
      let n := deriveDoor s y
      let v := if n.state = x.state then setDoor d n s
        else offerReport ⟨isBreach s x n || decide (n.state = .jammed),
            .door (isBreach s x n) d n.cfg ((Tab.get? s.zones n.cfg.zone).map (fun w => w.state))
              x.state n.state cause⟩
          (writePoints [(544 + d, n.state.code)] (setDoor d n s))
      if doorClasses x n = [] then v else tell (doorClasses x n) (.door d) v := by
  have zones : (writePoints [(Config.doorPoint d, (deriveDoor s y).state.code)]
      (setDoor d (deriveDoor s y) s)).zones = s.zones := zones_writePoints _ _
  unfold settleDoor reportDoor
  simp only [isBreach_congr zones, zones, List.isEmpty_iff]
  rfl

/-! ## O38 -/

theorem exec_closeLimitExpiry {d : Nat} {x : Door} {s : State} (hx : Tab.get? s.doors d = some x)
    (flight : x.inFlight = .close) (out : x.remaining = 0) : exec (.closeLimitExpiry d) s =
      .next (settle (settleDoor d x { x with
        inFlight := .none, jam := decide (x.state = .closing ∨ x.state = .isOpen) } .closeLimit s)) := by
  simp only [exec, execCloseLimitExpiry, closeLimitExpires, hx]
  rw [if_pos ⟨flight, out⟩]

/-- Settles O38: `orderSent` is a pass over the doors of the table that the order names, whose numbers are
apart in a canonical state; the close limit and the derivation are read off `closeLimitExpires` and
`settleDoor`. -/
theorem doorOrdersAreSeenAndLimited : Obligations.DoorOrdersAreSeenAndLimited := by
  unfold Obligations.DoorOrdersAreSeenAndLimited
  refine ⟨?_, ?_, ?_, ?_⟩
  · intro f s t sees after ht hs
    subst ht
    refine ⟨orderSent_of_other, fun kind code => orderSent_of_door kind code hs, ?_⟩
    intro kind code canonical ha d x hx
    rw [orderSent_of_door kind code hs, ha x, ← seeOrder_of_code code]
    exact (doorwise_doorSees _).foldl_filter sees canonical.doors hx
  · intro d x s hx
    rw [doorSees_of_valid true hx, doorSees_of_valid false hx, seeOrder_close, seeOrder_open]
    refine ⟨fun h => ?_, fun h => ?_, fun h => ?_, fun h => ?_⟩ <;> rw [h] <;> rfl
  · intro d x s hx flight out
    rw [exec_closeLimitExpiry hx flight out]
    refine ⟨fun h => by rw [decide_eq_true h], fun closing opened => ?_⟩
    rw [decide_eq_false (not_or.2 ⟨closing, opened⟩)]
  · intro d x y n cause s v zst breach cs hn hz hb hv hcs
    have same : breach = isBreach s x n := by
      rw [Bool.eq_iff_iff, hb, isBreach_iff, hz]
    rw [← doorClasses_eq] at hcs
    rw [settleDoor_eq, ← hn, hv, hcs, same, hz]
    exact ⟨fun h => if_pos h, fun h => if_neg h⟩

end Sys2Proof.Machine

/-! # Proofs: what waits of a zone and its program (R24, R117, R118, R128, R136 to R143) -/

namespace Sys2Proof.Machine

open Sys2Proof

/-! ## Doors offered a close (R118, R137) -/

section
variable {d : Nat} {x : Door} {rest : List (Nat × Door)} {s : State} {f : Frame}

theorem offerRound_of_closed (h : x.state = .closed ∨ x.inFlight = .close) :
    offerRound ((d, x) :: rest) s = offerRound rest s := if_pos h

theorem offerRound_of_room (hf : f = closeFrame x.cfg) (closed : x.state ≠ .closed)
    (flight : x.inFlight ≠ .close) (room : s.link.safety.length < 8) :
    offerRound ((d, x) :: rest) s = offerRound rest
      (kickD { s with link := { s.link with safety := s.link.safety ++ [f] } }) := by
  rw [offerRound, if_neg (not_or.2 ⟨closed, flight⟩), ← hf, offerSafety_of_room f room]

theorem offerRound_of_full (closed : x.state ≠ .closed) (flight : x.inFlight ≠ .close)
    (full : 8 ≤ s.link.safety.length) : offerRound ((d, x) :: rest) s = s := by
  rw [offerRound, if_neg (not_or.2 ⟨closed, flight⟩), offerSafety_of_full _ full]

theorem offerCloses_of_closed (h : x.state = .closed) :
    offerCloses ((d, x) :: rest) s = offerCloses rest s := if_pos h

theorem offerCloses_of_room (hf : f = closeFrame x.cfg) (closed : x.state ≠ .closed)
    (room : s.link.safety.length < 8) : offerCloses ((d, x) :: rest) s = offerCloses rest
      (kickD { s with link := { s.link with safety := s.link.safety ++ [f] } }) := by
  rw [offerCloses, if_neg closed, ← hf, offerSafety_of_room f room]

theorem offerCloses_of_full (closed : x.state ≠ .closed) (full : 8 ≤ s.link.safety.length) :
    offerCloses ((d, x) :: rest) s = (s, some d) := by
  rw [offerCloses, if_neg closed, offerSafety_of_full _ full]

end

/-! ## The end of a timer or a wait (R117, R128, R136 to R140)

A zone and, for a wait, the step its cursor stands on. -/

section
variable {z k q : Nat} {w : Zone} {prog : List ProgStep} {s : State}

theorem alertExpires_of_due (hw : Tab.get? s.zones z = some w) (state : w.state = .alert)
    (timer : w.timer = 0) : alertExpires z s = enterClosing z .alertTime s := by
  rw [alertExpires, hw]
  exact if_pos ⟨state, timer⟩

theorem recloseExpires_of_due (hw : Tab.get? s.zones z = some w) (due : w.reclose = some 0)
    (state : w.state = .secured ∨ w.state = .incomplete) :
    recloseExpires z s = setReclose z true (offerRound (ownDoors s z) s) := by
  rw [recloseExpires, hw]
  exact if_pos ⟨due, state⟩

/-- The step a cursor stands on, as the walk finds it. -/
theorem step_at {step : ProgStep} (program : w.cfg.program = some q) (hp : Tab.get? s.programs q = some prog)
    (at_k : prog[k - 1]? = some step) :
    (w.cfg.program.bind (Tab.get? s.programs)).bind (fun p => p[k - 1]?) = some step := by
  rw [program, Option.bind_some, hp, Option.bind_some, at_k]

variable (hw : Tab.get? s.zones z = some w) (hk : w.cursor = some k)
include hw hk

theorem reexamine_eq {r n l : Nat} (wait : w.wait = .await n)
    (at_k : (w.cfg.program.bind (Tab.get? s.programs)).bind (fun p => p[k - 1]?) = some (.await r l)) :
    reexamine z s = if awaitOver s z r then resume z (k + 1) s else s := by
  simp only [reexamine, hw, hk, wait, at_k]

theorem awaitExpires_eq {r n : Nat} (wait : w.wait = .await 0) (program : w.cfg.program = some q)
    (at_k : (w.cfg.program.bind (Tab.get? s.programs)).bind (fun p => p[k - 1]?) = some (.await r n)) :
    awaitExpires z s = resume z (k + 1) (alarm (.zoneStep z (some q) k (some 2)
      (.awaitLimit r (stillOpen s z r).length ((stillOpen s z r).headD 255))) s) := by
  simp only [awaitExpires, hw, hk, wait, at_k]
  rw [program]
  rfl

theorem pause10Expires_eq (wait : w.wait = .pause10 0) : pause10Expires z s = resume z (k + 1) s := by
  simp only [pause10Expires, hw, hk, wait]

theorem pause100Expires_eq (wait : w.wait = .pause100 0) : pause100Expires z s = resume z (k + 1) s := by
  simp only [pause100Expires, hw, hk, wait]

theorem reoffer_of_room {f : Frame} (wait : w.wait = .order f true) (room : s.link.safety.length < 8) :
    reoffer z s = resume z (k + 1)
      (kickD { s with link := { s.link with safety := s.link.safety ++ [f] } }) := by
  simp only [reoffer, hw, hk, wait]
  rw [offerSafety_of_room f room]

theorem reoffer_of_full {f : Frame} (wait : w.wait = .order f true) (full : 8 ≤ s.link.safety.length) :
    reoffer z s = modifyZone z (fun v => { v with wait := .order f false }) s := by
  simp only [reoffer, hw, hk, wait]
  rw [offerSafety_of_full f full]

theorem reoffer_of_closes {d r : Nat} (wait : w.wait = .closeFrom d true)
    (at_k : (w.cfg.program.bind (Tab.get? s.programs)).bind (fun p => p[k - 1]?) = some (.close r)) :
    reoffer z s = match offerCloses ((rankDoors s z r).filter (fun e => decide (d ≤ e.1))) s with
      | (t, none) => resume z (k + 1) t
      | (t, some n) => modifyZone z (fun v => { v with wait := .closeFrom n false }) t := by
  simp only [reoffer, hw, hk, wait, at_k] <;> rfl

end

theorem doorClosedOrJammed_iff (s : State) (d : Nat) : doorClosedOrJammed s d = true ↔
    (getPoint s (544 + d)).quality = .fresh ∧
      ((getPoint s (544 + d)).value = 2 ∨ (getPoint s (544 + d)).value = 6) := by
  rw [doorClosedOrJammed, Bool.and_eq_true, Bool.or_eq_true, decide_eq_true_iff, decide_eq_true_iff,
    decide_eq_true_iff]
  rfl

/-- R138: an AWAIT is over when each own door of its rank reads CLOSED or JAMMED. -/
theorem awaitOver_iff (s : State) (z r : Nat) : awaitOver s z r = true ↔
    ∀ e ∈ s.doors, e.2.cfg.zone = z → e.2.cfg.rank = r →
      (getPoint s (544 + e.1)).quality = .fresh ∧
      ((getPoint s (544 + e.1)).value = 2 ∨ (getPoint s (544 + e.1)).value = 6) := by
  simp only [awaitOver, rankDoors, ownDoors, List.filter_filter, List.all_eq_true, List.mem_filter,
    Bool.and_eq_true, decide_eq_true_iff, doorClosedOrJammed_iff, and_imp]
  exact forall₂_congr fun e he => ⟨fun h hz hr => h hr hz, fun h hr hz => h hz hr⟩

theorem rankDoors_from (s : State) (z r d : Nat) :
    (rankDoors s z r).filter (fun e => decide (d ≤ e.1)) =
      s.doors.filter (fun e => decide (e.2.cfg.zone = z) && decide (e.2.cfg.rank = r) &&
        decide (d ≤ e.1)) := by
  rw [rankDoors, ownDoors, List.filter_filter, List.filter_filter]
  exact List.filter_congr fun e _ => by ac_rfl

/-! ## Change events that name neither a trigger point nor a door state point (R24) -/

theorem Tab.isSome_get?_of_mem {α : Type} {t : Tab α} {e : Nat × α} (he : e ∈ t) :
    (Tab.get? t e.1).isSome := by
  induction t with
  | nil => exact absurd he List.not_mem_nil
  | cons c t ih =>
    obtain ⟨n, x⟩ := c
    rw [Tab.get?_cons]
    split
    · rfl
    next apart => exact ih ((List.mem_cons.1 he).resolve_left fun same => apart (same ▸ rfl))

/-- The numbers of the doors stay: a bound on them does. -/
theorem Keeps.doorNumbers {s t : State} (h : Keeps s t) {m : Nat} (below : ∀ e ∈ s.doors, e.1 ≤ m) :
    ∀ e ∈ t.doors, e.1 ≤ m := by
  intro e he
  have listed : (Tab.get? t.doors e.1).isSome := Tab.isSome_get?_of_mem he
  rw [← Option.isSome_map (f := fun x : Door => x.cfg), h.doors, Option.isSome_map] at listed
  obtain ⟨x, hx⟩ := Option.isSome_iff_exists.1 listed
  exact below (e.1, x) (Tab.get?_mem hx)

theorem zonesOnEvent_of_quiet {names : List Nat} {s : State}
    (triggers : ∀ e ∈ s.zones, ∀ n, e.2.cfg.trigger.point = some n → n ∉ names)
    (states : ∀ n ∈ names, n < 544 ∨ 639 < n) (doors : ∀ e ∈ s.doors, e.1 ≤ 95) :
    zonesOnEvent names s = s.zones.foldl (fun t e => reexamine e.1 t) s := by
  have kept : Keeps s (s.zones.foldl (fun t e => reexamine e.1 t) s) :=
    (KeepsAll.foldl (fun t e => keepsAll_reexamine e.1 t) s.zones s).toKeeps
  have numbers := kept.doorNumbers doors
  unfold zonesOnEvent
  dsimp only
  generalize named : s.zones.foldl (fun t e => reexamine e.1 t) s = u at numbers ⊢
  rw [foldl_of_quiet (l := s.zones) (s := s) ?triggersQuiet, named]
  case triggersQuiet =>
    intro e he t
    split
    next n hn => exact if_neg (triggers e he n hn)
    next => rfl
  refine List.foldl_fixed' (f := fun t (e : Nat × Zone) => if (ownDoors t e.1).any
    (fun d => decide (Config.doorPoint d.1 ∈ names)) then rejudge e.1 t else t) (fun e => if_neg ?_) _
  rw [Bool.not_eq_true, List.any_eq_false]
  intro x hx state
  have low := numbers x (List.mem_of_mem_filter hx)
  have apart := states _ (of_decide_eq_true state)
  rw [Config.doorPoint] at apart
  omega

/-! ## O42 -/

/-- Settles O42: each expiry and wait is read off its function under the hypotheses that make it due; at a
change event the triggers and the judgement of doors have nothing to do, so the AWAIT steps are left. -/
theorem zoneTimersAndProgramWaitsEnd : Obligations.ZoneTimersAndProgramWaitsEnd := by
  unfold Obligations.ZoneTimersAndProgramWaitsEnd
  refine ⟨?_, ?_, ?_, ?_⟩
  · intro z w s hw
    refine ⟨fun state timer => ?_, fun due state => ?_⟩
    · rw [exec, execAlertTimerExpiry, alertExpires_of_due hw state timer]
    · rw [exec, execRecloseTimerExpiry, recloseExpires_of_due hw due state, ownDoors]
  · intro z k w s hw hk
    refine ⟨?_, ?_, ?_, ?_, ?_, ?_, ?_⟩
    · intro r n l q prog wait program hp at_k
      rw [exec, execAwaitDoorsClosed, reexamine_eq hw hk wait (step_at program hp at_k)]
      refine ⟨fun done => ?_, fun e he zone rank waits => ?_⟩
      · rw [if_pos ((awaitOver_iff s z r).2 done)]
        exact ⟨rfl, rfl⟩
      · rw [if_neg (fun done => ?_)]
        · exact ⟨rfl, rfl⟩
        · obtain ⟨fresh, value⟩ := (awaitOver_iff s z r).1 done e he zone rank
          rcases waits with stale | ⟨two, six⟩
          · exact stale fresh
          · exact value.elim two six
    · intro r n q prog wait program hp at_k
      rw [exec, execAwaitLimit, awaitExpires_eq hw hk wait program (step_at program hp at_k), alarm]
    · intro wait
      rw [exec, execPause10Expiry, pause10Expires_eq hw hk wait]
    · intro wait
      rw [exec, execPause100Expiry, pause100Expires_eq hw hk wait]
    · intro f wait room
      rw [exec, execProgramStepReoffer, reoffer_of_room hw hk wait room]
    · intro f wait full
      rw [exec, execProgramStepReoffer, reoffer_of_full hw hk wait full]
    · intro d r q prog doors wait program hp at_k hd
      rw [exec, execProgramStepReoffer, reoffer_of_closes hw hk wait (step_at program hp at_k),
        rankDoors_from, ← hd]
      refine ⟨fun t ht => ?_, fun t n ht => ?_⟩ <;> rw [ht]
  · exact fun names s triggers states doors => zonesOnEvent_of_quiet triggers states doors
  · intro d x rest s f hf
    exact ⟨offerRound_of_closed, offerRound_of_room hf, offerRound_of_full, rfl, offerCloses_of_closed,
      offerCloses_of_room hf, offerCloses_of_full⟩

end Sys2Proof.Machine

/-! # Proofs: what an event leaves while every axis is at rest

After a restart no axis has a move, a run or its latch set. What the blocks then do to an axis (the
announcement of a gate or of SAFE, a HALT) finds nothing to stop. While the blocks rebuild mode control is
told nothing, so the mode stands. -/

namespace Sys2Proof.Machine

open Sys2Proof

/-- Every axis without a move, a coupled run and a pending move, its latch clear (R87). -/
structure AtRest (s : State) : Prop where
  pending : ∀ a : AxisId, (getAxis s a).pending = []
  current : ∀ a : AxisId, (getAxis s a).current = none
  run : ∀ a : AxisId, (getAxis s a).run = none
  latch : ∀ a : AxisId, (getAxis s a).latch = false

/-- What an operation leaves of the axes, of a rebuild and of a clean image. -/
structure Stays (s t : State) : Prop where
  axes : t.axes = s.axes
  rebuilding : t.rebuilding.isSome = s.rebuilding.isSome
  mode : s.rebuilding.isSome = true → t.mode = s.mode
  clean : Clean s → Clean t

/-- What it leaves when every axis is at rest. -/
structure Rests (s t : State) : Prop where
  of : AtRest s → Stays s t

variable {s t u : State}

theorem Stays.refl (s : State) : Stays s s := ⟨rfl, rfl, fun _ => rfl, id⟩

theorem Stays.trans (h : Stays s t) (g : Stays t u) : Stays s u :=
  ⟨g.axes.trans h.axes, g.rebuilding.trans h.rebuilding,
    fun r => (g.mode (h.rebuilding.trans r)).trans (h.mode r), fun c => g.clean (h.clean c)⟩

theorem AtRest.of_axes (r : AtRest s) (h : t.axes = s.axes) : AtRest t := by
  have channel (a : AxisId) : getAxis t a = getAxis s a := by
    rw [getAxis, getAxis, h]
  exact ⟨fun a => by rw [channel]; exact r.pending a, fun a => by rw [channel]; exact r.current a,
    fun a => by rw [channel]; exact r.run a, fun a => by rw [channel]; exact r.latch a⟩

theorem AtRest.stays (r : AtRest s) (h : Stays s t) : AtRest t := r.of_axes h.axes

theorem Beside.stays (h : Beside s t) : Stays s t := ⟨h.axes, h.rebuilding, fun _ => h.mode, h.clean⟩

theorem Stays.rests (h : Stays s t) : Rests s t := ⟨fun _ => h⟩

theorem Beside.rests (h : Beside s t) : Rests s t := h.stays.rests

theorem Rests.refl (s : State) : Rests s s := (Stays.refl s).rests

theorem Rests.trans (h : Rests s t) (g : Rests t u) : Rests s u :=
  ⟨fun r => (h.of r).trans (g.of (r.stays (h.of r)))⟩

theorem Rests.foldl {α : Type} {f : State → α → State} (h : ∀ t x, Rests t (f t x)) (l : List α)
    (s : State) : Rests s (l.foldl f s) := by
  induction l generalizing s with
  | nil => exact .refl s
  | cons x l ih => exact (h s x).trans (ih (f s x))

/-- A fold that carries something beside the state. -/
theorem Rests.foldl_fst {α β : Type} {f : State × β → α → State × β} (h : ∀ p x, Rests p.1 (f p x).1)
    (l : List α) (p : State × β) : Rests p.1 (l.foldl f p).1 := by
  induction l generalizing p with
  | nil => exact .refl p.1
  | cons x l ih => exact (h p x).trans (ih (f p x))

/-- A fold of operations of a part that runs. -/
theorem Rests.foldl_running {α : Type} {f : State → α → State}
    (h : ∀ t x, t.rebuilding.isSome = false → Rests t (f t x)) (l : List α) (s : State)
    (running : s.rebuilding.isSome = false) : Rests s (l.foldl f s) := by
  induction l generalizing s with
  | nil => exact .refl s
  | cons x l ih =>
    refine ⟨fun r => ?_⟩
    have first := (h s x running).of r
    exact first.trans ((ih (f s x) (first.rebuilding.trans running)).of (r.stays first))

/-! ## The axes -/

theorem setAxis_getAxis (a : AxisId) (s : State) : setAxis a (getAxis s a) s = s := by
  unfold setAxis getAxis
  rw [show s.axes.set a.val s.axes[a] a.isLt = s.axes from Vector.set_getElem_self a.isLt]

theorem slowStop_of_atRest (r : AtRest s) (a : AxisId) (o : MoveOutcome) (namer : Option AxisId) :
    slowStop a o namer s = s := by
  unfold slowStop
  dsimp only
  split
  next h => cases (r.current a).symm.trans h
  next => rfl

theorem finishMove_of_atRest (r : AtRest s) (a : AxisId) (o : MoveOutcome) (namer : Option AxisId)
    (rest : AxisState) : finishMove a o namer rest s = s := by
  unfold finishMove
  dsimp only
  rw [r.current a]

theorem flushPending_of_atRest (r : AtRest s) (a : AxisId) : flushPending a s = s := by
  unfold flushPending
  dsimp only
  rw [r.pending a]
  rfl

theorem quickStop_of_atRest (r : AtRest s) (a : AxisId) (o : MoveOutcome) (namer : Option AxisId) :
    quickStop a o namer s = s := by
  unfold quickStop
  simp only [finishMove_of_atRest r]
  split
  · rfl
  · split <;> rfl
  · rfl

theorem rests_announceAxis (o : MoveOutcome) (a : AxisId) (s : State) : Rests s (announceAxis o a s) := by
  refine ⟨fun r => ?_⟩
  have cleared : setAxis a { getAxis s a with latch := false } s = s := by
    have same : { getAxis s a with latch := false } = getAxis s a := by rw [← r.latch a]
    rw [same, setAxis_getAxis]
  unfold announceAxis
  simp only [cleared, flushPending_of_atRest r, ite_self, slowStop_of_atRest r]
  split
  · exact .refl s
  · split
    · exact .refl s
    · exact (beside_publishMotion a s).stays

theorem rests_announceGate (z : Nat) (s : State) : Rests s (announceGate z s) :=
  Rests.foldl (fun t a => rests_announceAxis .gated a t) _ s

theorem rests_haltZone (z : Nat) (s : State) : Rests s (haltZone z s) := by
  refine Rests.foldl (fun t a => ?_) _ s
  split
  · exact .refl t
  · exact ⟨fun r => by rw [quickStop_of_atRest r]; exact .refl t⟩

/-! ## Mode control -/

theorem rests_enterSafe (cause : ModeCause) (s : State) (running : s.rebuilding.isSome = false) :
    Rests s (enterSafe cause s) := by
  have entered : Rests s { s with mode := .safe } :=
    (⟨rfl, rfl, fun h => by simp [running] at h, id⟩ : Stays s { s with mode := .safe }).rests
  have refused := entered.trans (beside_refuseHeld .mode { s with mode := .safe }).rests
  unfold enterSafe tellSafe
  generalize refuseHeld .mode { s with mode := .safe } = v at refused ⊢
  exact (refused.trans (Rests.foldl (fun t a => rests_announceAxis .safe a t) allAxes v)).trans
    (beside_announceMode _ _ _ _).rests

theorem rests_classesChanged (cs : List FaultClass) (who : Contributor) (s : State)
    (running : s.rebuilding.isSome = false) : Rests s (classesChanged cs who s) := by
  unfold classesChanged
  dsimp only
  split
  · exact .refl s
  · have reported := (beside_writePoints [(Config.faultPoint, (activeSet s).toNat)] s).trans
      (Beside.foldl (fun t c => beside_alarm (.fault c (getClass s c).active who (activeSet s)) t) cs _)
    refine reported.rests.trans (Rests.foldl_running (fun t c h => ?_) cs _
      (reported.rebuilding.trans running))
    split
    · exact rests_enterSafe _ t h
    · exact .refl t

theorem rests_setClass (c : FaultClass) (x : ClassState) (s : State) : Rests s (setClass c x s) :=
  (⟨rfl, rfl, fun _ => rfl, id⟩ : Stays s (setClass c x s)).rests

theorem rebuilding_foldl_recount (cs : List FaultClass) (s : State) :
    (cs.foldl (fun t c => recount c t) s).rebuilding = s.rebuilding := by
  induction cs generalizing s with
  | nil => rfl
  | cons c cs ih => exact ih (recount c s)

theorem rests_tell (cs : List FaultClass) (who : Contributor) (s : State) : Rests s (tell cs who s) := by
  unfold tell
  split
  · exact .refl s
  next running =>
    have still : (cs.foldl (fun t c => recount c t) s).rebuilding.isSome = false := by
      rw [rebuilding_foldl_recount]
      exact Bool.not_eq_true _ ▸ running
    exact (Rests.foldl (fun t c => rests_setClass c _ t) cs s).trans (rests_classesChanged _ who _ still)

theorem rests_occurrence (o : OccurrenceClass) (who : Contributor) (s : State) :
    Rests s (occurrence o who s) := by
  unfold occurrence
  split
  · exact .refl s
  next running =>
    dsimp only
    split
    · exact rests_setClass _ _ s
    · exact (rests_setClass _ _ s).trans (rests_classesChanged _ who _ (Bool.not_eq_true _ ▸ running))

/-! ## Zones -/

theorem rests_programError (z : Nat) (p : Option Nat) (k : Nat) (code : Option Nat) (r : StepResult)
    (s : State) : Rests s (programError z p k code r s) :=
  (beside_alarm _ s).rests.trans (rests_occurrence _ _ _)

theorem rests_callStep (z : Nat) (p : Option Nat) (k n : Nat) (s : State) : Rests s (callStep z p k n s) := by
  unfold callStep
  split
  · exact .refl s
  · have asked := (beside_startCall n (.zone z) none s).rests
    split
    next u _ started => rw [started] at asked; exact asked
    next u refused => rw [refused] at asked; exact asked.trans (rests_programError _ _ _ _ _ u)
    next u refused => rw [refused] at asked; exact asked.trans (rests_programError _ _ _ _ _ u)

theorem rests_takeStep (z : Nat) (p : Option Nat) (k : Nat) (step : ProgStep) (s : State) :
    Rests s (takeStep z p k step s).1 := by
  unfold takeStep
  split
  case h_1 r =>
    have offered := (beside_offerCloses (rankDoors s z r) s).rests
    split
    next u taken => rw [taken] at offered; exact offered
    next u d refused => rw [refused] at offered; exact offered
  case h_2 => split <;> exact .refl s
  case h_5 => exact rests_callStep z p k _ s
  case h_6 station code device word =>
    have offered := (beside_offerSafety (stepFrame station code device word) s).rests
    split
    next u taken => rw [taken] at offered; exact offered
    next u refused => rw [refused] at offered; exact offered
  case h_7 => exact rests_haltZone z s
  all_goals exact .refl s

theorem rests_walk (fuel z : Nat) (s : State) : Rests s (walk fuel z s).1 := by
  induction fuel generalizing s with
  | zero => exact (beside_leaveClosing z s).rests
  | succ fuel ih =>
    unfold walk
    split
    · exact .refl s
    next w _ =>
      split
      · exact .refl s
      next k _ =>
        split
        · exact (beside_leaveClosing z s).rests
        next step _ =>
          have taken := rests_takeStep z w.cfg.program k step s
          split
          next v _ ended => rw [ended] at taken; exact taken.trans (beside_leaveClosing z v).rests
          next v j moved =>
            rw [moved] at taken
            exact (taken.trans (beside_modifyZone z _ v).rests).trans (ih _)
          next v _ _ _ stands =>
            rw [stands] at taken
            exact taken.trans (beside_modifyZone z _ v).rests

theorem rests_walkFrom (z k : Nat) (s : State) : Rests s (walkFrom z k s).1 :=
  (beside_modifyZone z _ s).rests.trans (rests_walk _ z _)

theorem rests_resume (z k : Nat) (s : State) : Rests s (resume z k s) :=
  (rests_walkFrom z k s).trans (beside_finishChanges _ _).rests

theorem rests_closeOne (cause : ZoneCause) (z : Nat) (s : State) : Rests s (closeOne cause z s).1 := by
  unfold closeOne
  split
  · exact .refl s
  next w _ =>
    have left : Rests s (if w.state = .alert then leaveAlert z s else s) := by
      split
      · exact (beside_leaveAlert z s).rests
      · exact .refl s
    generalize (if w.state = .alert then leaveAlert z s else s) = v at left ⊢
    have shut := (left.trans (beside_modifyZone z
      (fun x => { x with state := .closing, timer := 0, wait := .none }) v).rests).trans (rests_announceGate z _)
    dsimp only
    split
    · exact shut.trans (rests_walkFrom z 1 _)
    · exact shut.trans (beside_leaveClosing z _).rests

theorem rests_enterClosing (z : Nat) (cause : ZoneCause) (s : State) : Rests s (enterClosing z cause s) := by
  unfold enterClosing
  dsimp only
  refine Rests.trans ?_ (beside_finishChanges _ _).rests
  refine (rests_closeOne cause z s).trans (Rests.foldl_fst (fun p y => ?_) _ _)
  exact rests_closeOne _ y p.1

theorem rests_startAlertCall (z : Nat) (s : State) : Rests s (startAlertCall z s) := by
  unfold startAlertCall
  split
  · exact .refl s
  next n _ =>
    have asked := (beside_startCall n (.zone z) none s).rests
    dsimp only
    split
    next u _ started => rw [started] at asked; exact asked.trans (beside_modifyZone z _ u).rests
    next u refused => rw [refused] at asked; exact asked.trans (rests_programError _ _ _ _ _ u)
    next u refused => rw [refused] at asked; exact asked.trans (rests_programError _ _ _ _ _ u)

theorem rests_enterAlert (z : Nat) (cause : ZoneCause) (s : State) : Rests s (enterAlert z cause s) := by
  unfold enterAlert
  split
  · exact .refl s
  · split
    · exact rests_enterClosing z cause s
    · exact ((beside_setZone z _ s).rests.trans (rests_startAlertCall z _)).trans
        (beside_finishChanges _ _).rests

theorem rests_evalTrigger (z : Nat) (s : State) : Rests s (evalTrigger z s) := by
  unfold evalTrigger
  split
  · exact .refl s
  next w _ =>
    have kept := (beside_setZone z { w with trigger := evalTerm s w.cfg.trigger } s).rests
    dsimp only
    split
    · split
      · exact kept.trans (beside_alarm _ _).rests
      all_goals
        split
        · exact kept.trans (rests_enterAlert z .trigger _)
        · exact kept
    · exact kept

theorem rests_evalTriggers (s : State) : Rests s (evalTriggers s) :=
  Rests.foldl (fun t (e : Nat × Zone) => rests_evalTrigger e.1 t) _ s

theorem rests_reexamine (z : Nat) (s : State) : Rests s (reexamine z s) := by
  unfold reexamine
  split
  · exact .refl s
  · split
    · split
      · split
        · exact rests_resume z _ s
        · exact .refl s
      · exact .refl s
    · exact .refl s

theorem rests_rejudge (z : Nat) (s : State) : Rests s (rejudge z s) := by
  unfold rejudge
  split
  · exact .refl s
  · dsimp only
    split
    · split
      · exact .refl s
      · exact ((beside_setZone z _ s).trans (beside_finishChanges _ _)).rests
    · exact .refl s

theorem rests_zonesOnEvent (names : List Nat) (s : State) : Rests s (zonesOnEvent names s) := by
  unfold zonesOnEvent
  dsimp only
  refine ((Rests.foldl (fun t e => ?_) s.zones s).trans
    (Rests.foldl (fun t (e : Nat × Zone) => rests_reexamine e.1 t) _ _)).trans (Rests.foldl (fun t e => ?_) _ _)
  · split
    · split
      · exact rests_evalTrigger e.1 t
      · exact .refl t
    · exact .refl t
  · split
    · exact rests_rejudge e.1 t
    · exact .refl t

/-! ## Doors -/

theorem rests_setDoor (d : Nat) (x : Door) (s : State) : Rests s (setDoor d x s) :=
  (⟨rfl, rfl, fun _ => rfl, id⟩ : Stays s (setDoor d x s)).rests

theorem rests_settleDoor (d : Nat) (old x : Door) (cause : DoorCause) (s : State) :
    Rests s (settleDoor d old x cause s) := by
  unfold settleDoor
  dsimp only
  have reported : Rests s (if (deriveDoor s x).state = old.state then setDoor d (deriveDoor s x) s
      else reportDoor d old (deriveDoor s x) cause
        (writePoints [(Config.doorPoint d, (deriveDoor s x).state.code)] (setDoor d (deriveDoor s x) s))) := by
    split
    · exact rests_setDoor d _ s
    · exact (rests_setDoor d _ s).trans ((beside_writePoints _ _).trans (beside_offerReport _ _)).rests
  split
  · exact reported
  · exact reported.trans (rests_tell _ _ _)

theorem rests_doorsOnEvent (names : List Nat) (s : State) : Rests s (doorsOnEvent names s) := by
  refine Rests.foldl (fun t e => ?_) s.doors s
  split
  · unfold rederive
    split
    · exact rests_settleDoor _ _ _ _ t
    · exact .refl t
  · exact .refl t

/-! ## Change events, no order being held -/

theorem heldOnEvent_of_none (names : List Nat) (h : s.hold = []) : heldOnEvent names s = s := by
  have marked : markHeld (fun r => r.reads.any (fun n => decide (n ∈ names))) s = s := by
    unfold markHeld
    rw [h, List.map_nil, ← h]
  rw [heldOnEvent, marked, reevaluateHeld, h]
  rfl

theorem rests_takeEvent (names : List Nat) (h : s.hold = []) : Rests s (takeEvent names s) := by
  rw [takeEvent, heldOnEvent_of_none names h]
  exact (rests_zonesOnEvent names s).trans (rests_doorsOnEvent names _)

theorem rests_settleWith (fuel : Nat) (s : State) (h : s.hold = []) : Rests s (settleWith fuel s) := by
  induction fuel generalizing s with
  | zero => exact .refl s
  | succ fuel ih =>
    unfold settleWith
    split
    · exact .refl s
    next e rest _ =>
      have taken : Rests s { s with events := rest } :=
        (⟨rfl, rfl, fun _ => rfl, id⟩ : Stays s { s with events := rest }).rests
      exact (taken.trans (rests_takeEvent e (s := { s with events := rest }) h)).trans
        (ih _ ((keepsAll_takeEvent e { s with events := rest }).held h))

theorem rests_settle (h : s.hold = []) : Rests s (settle s) := rests_settleWith _ s h

end Sys2Proof.Machine

/-! # Proofs: the warm restart (R19, R37, R87, R122, R146, R162, R174, R182) -/

namespace Sys2Proof.Machine

open Sys2Proof

/-! ## The field points, the stations and the axes (R19, R37, R87) -/

/-- The blocks that rebuild from what they keep alone. -/
def restartFront (s : State) : State := restartAxes (restartStations (restartPoints s))

theorem rebuild_eq (s : State) : rebuild s = restartControl (restartPublish (restartOwners
    (restartZones (restartDoors (restartCalls (restartFront s)))))) := rfl

theorem atRest_restartFront (s : State) : AtRest (restartFront s) := by
  have channel (a : AxisId) : getAxis (restartFront s) a = (getAxis s a).restarted :=
    Vector.getElem_map Axis.restarted a.isLt
  exact ⟨fun a => by rw [channel]; rfl, fun a => by rw [channel]; rfl, fun a => by rw [channel]; rfl,
    fun a => by rw [channel]; rfl⟩

/-- An internal point is NEVER until its owner writes it. -/
theorem clean_restartFront (s : State) : Clean (restartFront s) := by
  intro n above
  refine .inl ?_
  have gone : Tab.get? (restartFront s).points n = none := by
    cases h : Tab.get? (restartFront s).points n with
    | none => rfl
    | some p =>
      obtain ⟨e, -, he⟩ := List.mem_filterMap.1 (Tab.get?_mem h)
      obtain ⟨q, hq, same⟩ := Option.map_eq_some_iff.1 he
      have number : e.1 = n := congrArg Prod.fst same
      rw [restartPoint, if_pos (by omega)] at hq
      cases hq
  rw [getPoint, gone]
  rfl

/-- Table 2-8. -/
theorem getPoint_restartFront {s : State} {n : Nat} (sorted : Tab.Sorted s.points = true) (low : n ≤ 511) :
    getPoint (restartFront s) n = if (getPoint s n).quality = .forced then getPoint s n
      else if retentionOf s n = .keep ∧ (getPoint s n).quality ≠ .never
        then { getPoint s n with quality := .stale }
      else { value := 0, quality := .never, age := 0 } := by
  have image : Tab.get? (restartFront s).points n = (Tab.get? s.points n).bind (restartPoint s n) :=
    Tab.get?_filterMap (restartPoint s) n sorted
  rw [getPoint, image, getPoint]
  cases Tab.get? s.points n with
  | none => simp
  | some p =>
    rw [Option.bind_some, Option.getD_some, restartPoint, if_neg (by omega)]
    split_ifs <;> rfl

theorem getStation_restartFront (s : State) (n : Nat) : (getStation (restartFront s) n).state = .unseen ∧
    (getStation (restartFront s) n).count = 0 ∧ (getStation (restartFront s) n).lastSeq = none := by
  rw [getStation]
  cases h : Tab.get? (restartFront s).stations n with
  | none => exact ⟨rfl, rfl, rfl⟩
  | some x =>
    obtain ⟨e, -, same⟩ := List.mem_map.1 (List.mem_of_mem_filter (Tab.get?_mem h))
    obtain rfl : e.2.restarted = x := congrArg Prod.snd same
    exact ⟨rfl, rfl, rfl⟩

/-! ## Every block after them -/

theorem keeps_rebuild (s : State) : Keeps (restartFront s) (rebuild s) :=
  (((keeps_restartCalls _).trans (keepsAll_restartDoors _).toKeeps).trans
    (keepsAll_restartZones _).toKeeps |>.trans (keeps_restartOwners _)).trans
    ((keepsAll_restartPublish _).trans (keepsAll_restartControl _)).toKeeps

theorem beside_restartCalls (s : State) : Beside s (restartCalls s) := by
  refine (beside_calls s []).trans (Beside.foldl (fun t c => ?_) s.calls _)
  split
  · exact beside_joinCall _ t
  · exact .refl t

theorem rests_restartDoors (s : State) : Rests s (restartDoors s) := by
  refine Rests.foldl (fun t e => ?_) s.doors s
  unfold restartDoor
  split
  · exact (rests_setDoor _ _ t).trans (beside_writePoints _ _).rests
  · exact .refl t

theorem rests_restartZone (z : Nat) (s : State) : Rests s (restartZone z s) := by
  unfold restartZone
  split
  · exact .refl s
  · extract_lets v
    have kept (w : Zone) : Rests s (setZone z w s) := (beside_setZone z w s).rests
    split
    · exact (kept _).trans (rests_startAlertCall z _)
    · split
      · split
        · exact (kept v).trans (rests_walkFrom z 1 _)
        · exact (kept v).trans (beside_leaveClosing z _).rests
      · exact (kept v).trans (beside_leaveClosing z _).rests
    all_goals exact kept v

theorem beside_restartReclose (z : Nat) (s : State) : Beside s (restartReclose z s) := by
  unfold restartReclose
  split
  · split
    · exact beside_setReclose z true s
    · exact (beside_offerRound _ s).trans (beside_setReclose z true _)
    all_goals exact .refl s
  · exact .refl s

theorem rests_restartZones (s : State) : Rests s (restartZones s) :=
  ((Rests.foldl (fun t (e : Nat × Zone) => rests_restartZone e.1 t) s.zones s).trans
    (beside_publishZones _).rests).trans
    (Beside.foldl (fun t (e : Nat × Zone) => beside_restartReclose e.1 t) _ _).rests

theorem beside_restartOwners (s : State) : Beside s (restartOwners s) :=
  (beside_recompute s).trans (beside_writePoints _ _)

theorem beside_restartPublish (s : State) : Beside s (restartPublish s) :=
  (Beside.foldl (fun t a => beside_publishAxis a _ t) allAxes s).trans (beside_writePoints _ _)

/-- The calls, the doors, the zones and the owners. -/
def restartBlocks (s : State) : State :=
  restartOwners (restartZones (restartDoors (restartCalls (restartFront s))))

theorem clean_restartZones (s : State) :
    Clean (restartZones (restartDoors (restartCalls (restartFront s)))) :=
  ((((beside_restartCalls _).rests.trans (rests_restartDoors _)).trans (rests_restartZones _)).of
    (atRest_restartFront s)).clean (clean_restartFront s)

theorem stays_restartBlocks (s : State) : Stays (restartFront s) (restartBlocks s) :=
  ((((beside_restartCalls _).rests.trans (rests_restartDoors _)).trans (rests_restartZones _)).trans
    (beside_restartOwners _).rests).of (atRest_restartFront s)

/-! ## Writes of points -/

theorem writePoints_cases (ws : List (Nat × Nat)) (s : State) :
    ∃ ps es, writePoints ws s = { s with points := ps, events := es } := by
  obtain ⟨due, -, image⟩ := writePoints_eq ws s
  obtain ⟨es, he⟩ := setImage_cases (due.foldl (fun t w => putPoint t w.1 ⟨BitVec.ofNat 16 w.2, .fresh, 0⟩)
    s.points) (due.map (·.1)) s
  exact ⟨_, es, image.trans he⟩

theorem restartPublish_cases (s : State) :
    ∃ ps es, restartPublish s = { s with points := ps, events := es } := by
  have published (l : List AxisId) : ∀ t : State, ∃ ps es,
      l.foldl (fun t a => publishAxis a [0, 1, 2, 3, 4, 5, 6, 7] t) t = { t with points := ps, events := es } := by
    induction l with
    | nil => exact fun t => ⟨t.points, t.events, rfl⟩
    | cons a l ih =>
      intro t
      obtain ⟨ps, es, first⟩ := writePoints_cases
        ([0, 1, 2, 3, 4, 5, 6, 7].map (fun k => (Config.axisPoint a.val k, axisQuantity t (getAxis t a) k))) t
      obtain ⟨qs, fs, rest⟩ := ih { t with points := ps, events := es }
      exact ⟨qs, fs, by rw [List.foldl_cons, publishAxis, first, rest]⟩
  unfold restartPublish
  obtain ⟨ps, es, axes⟩ := published allAxes s
  obtain ⟨qs, fs, bridge⟩ := writePoints_cases [(Config.bridgePoint, if s.link.bridge = .heard then 1 else 0)]
    { s with points := ps, events := es }
  exact ⟨qs, fs, by rw [axes, bridge]⟩

/-! ## Mode control (R182) -/

/-- R182: a class counted afresh. -/
def freshClass (s : State) (c : FaultClass) : ClassState :=
  { active := decide (0 < contributors s c), count := contributors s c, timer := 0 }

theorem getClass_restartClass (c d : FaultClass) (s : State) :
    getClass (recount c (setClass c {} s)) d = if d = c then freshClass s c else getClass s d := by
  rw [getClass_recount, getClass_setClass_same, contributors_setClass]
  split
  · rfl
  next apart => rw [getClass_setClass, if_neg apart]

/-- The classes counted afresh: nothing else changes. -/
theorem restartClasses (l : List FaultClass) : ∀ s : State, ∃ cs,
    l.foldl (fun t c => recount c (setClass c {} t)) s = { s with classes := cs } ∧
    ∀ d, (d ∈ l ∨ getClass s d = freshClass s d) → getClass { s with classes := cs } d = freshClass s d := by
  induction l with
  | nil => exact fun s => ⟨s.classes, rfl, fun d h => h.resolve_left List.not_mem_nil⟩
  | cons c l ih =>
    intro s
    obtain ⟨cs, rest, counted⟩ := ih (recount c (setClass c {} s))
    have same (d : FaultClass) : freshClass (recount c (setClass c {} s)) d = freshClass s d := by
      rw [freshClass, freshClass, recount, contributors_setClass, contributors_setClass]
    refine ⟨cs, rest, fun d h => ?_⟩
    rw [← same d]
    refine counted d ?_
    rw [same d, getClass_restartClass]
    by_cases hd : d = c
    · exact .inr (by rw [if_pos hd, hd])
    · rw [if_neg hd]
      exact h.imp_left fun listed => (List.mem_cons.1 listed).resolve_left hd

/-- R182: the classes and the mode as mode control finds them, with the two points written. -/
theorem restartControl_cases (s : State) : ∃ cs m f, (∀ c, getClass { s with classes := cs } c = freshClass s c) ∧
    m = restartMode { s with classes := cs } ∧ f = (activeSet { s with classes := cs }).toNat ∧
    restartControl s = writePoints [(696, m.code), (698, f)] { s with classes := cs, mode := m } := by
  obtain ⟨cs, counted, fresh⟩ := restartClasses FaultClass.all s
  refine ⟨cs, restartMode { s with classes := cs }, (activeSet { s with classes := cs }).toNat,
    fun c => fresh c (.inl (by cases c <;> decide)), rfl, rfl, ?_⟩
  unfold restartControl
  rw [counted]
  rfl

theorem contributors_restartControl (s : State) (c : FaultClass) :
    contributors (restartControl s) c = contributors s c := by
  obtain ⟨cs, m, f, -, -, -, control⟩ := restartControl_cases s
  obtain ⟨ps, es, written⟩ := writePoints_cases [(696, m.code), (698, f)] { s with classes := cs, mode := m }
  rw [control, written]
  cases c <;> rfl

theorem getClass_restartControl (s : State) (c : FaultClass) : getClass (restartControl s) c =
    { active := decide (0 < contributors (restartControl s) c)
      count := contributors (restartControl s) c, timer := 0 } := by
  rw [contributors_restartControl]
  obtain ⟨cs, m, f, fresh, -, -, control⟩ := restartControl_cases s
  obtain ⟨ps, es, written⟩ := writePoints_cases [(696, m.code), (698, f)] { s with classes := cs, mode := m }
  rw [control, written]
  exact fresh c

/-- R182: the mode follows the classes counted afresh. -/
theorem mode_restartControl (s : State) : (restartControl s).mode =
    if s.mode = .config then .config else if (safeClass (restartControl s)).isSome then .safe else .run := by
  obtain ⟨cs, m, f, -, mode, -, control⟩ := restartControl_cases s
  obtain ⟨ps, es, written⟩ := writePoints_cases [(696, m.code), (698, f)] { s with classes := cs, mode := m }
  rw [control, written]
  exact mode

/-! ## The points written anew (R37, R162, R182) -/

theorem getPoint_restartControl (s : State) (c : Clean s) :
    getPoint (restartControl s) 696 =
      { value := BitVec.ofNat 16 (restartControl s).mode.code, quality := .fresh, age := 0 } ∧
    getPoint (restartControl s) 698 =
      { value := BitVec.ofNat 16 (activeSet (restartControl s)).toNat, quality := .fresh, age := 0 } ∧
    ∀ n, n ≠ 696 → n ≠ 698 → getPoint (restartControl s) n = getPoint s n := by
  obtain ⟨cs, m, f, -, -, faults, control⟩ := restartControl_cases s
  obtain ⟨ps, es, written⟩ := writePoints_cases [(696, m.code), (698, f)] { s with classes := cs, mode := m }
  have mode : (restartControl s).mode = m := by rw [control, written]
  have active : (activeSet (restartControl s)).toNat = f := by rw [control, written, faults]; rfl
  have clean : Clean { s with classes := cs, mode := m } := c
  rw [mode, active, control]
  refine ⟨?_, ?_, fun n hm hf => ?_⟩
  · exact getPoint_writePoints (w := (696, m.code)) clean List.mem_cons_self (by dsimp only; omega) (by simp)
  · exact getPoint_writePoints (w := (698, f)) clean (List.mem_cons_of_mem _ List.mem_cons_self)
      (by dsimp only; omega) (by simp)
  · refine getPoint_writePoints_other fun w hw same => ?_
    simp only [List.mem_cons, List.not_mem_nil, or_false] at hw
    rcases hw with rfl | rfl
    · exact absurd same.symm hm
    · exact absurd same.symm hf

theorem axisQuantity_congr {s t : State} (h : t.axes = s.axes) (x : Axis) (k : Nat) :
    axisQuantity t x k = axisQuantity s x k := by
  unfold axisQuantity axisSpeed getAxis
  rw [h]

/-- The points of an axis once every axis of a list has published. -/
theorem getPoint_published {k : Nat} (a : AxisId) (hk : k < 8) (l : List AxisId) : ∀ s : State, Clean s →
    (a ∈ l ∨ getPoint s (512 + 8 * a.val + k) =
      { value := BitVec.ofNat 16 (axisQuantity s (getAxis s a) k), quality := .fresh, age := 0 }) →
    getPoint (l.foldl (fun t b => publishAxis b [0, 1, 2, 3, 4, 5, 6, 7] t) s) (512 + 8 * a.val + k) =
      { value := BitVec.ofNat 16 (axisQuantity s (getAxis s a) k), quality := .fresh, age := 0 } := by
  induction l with
  | nil => exact fun s _ h => h.resolve_left List.not_mem_nil
  | cons b l ih =>
    intro s clean h
    have beside := beside_publishAxis b [0, 1, 2, 3, 4, 5, 6, 7] s
    have same : axisQuantity (publishAxis b [0, 1, 2, 3, 4, 5, 6, 7] s)
        (getAxis (publishAxis b [0, 1, 2, 3, 4, 5, 6, 7] s) a) k = axisQuantity s (getAxis s a) k := by
      rw [beside.getAxis, axisQuantity_congr beside.axes]
    rw [List.foldl_cons, ← same]
    refine ih _ (beside.clean clean) ?_
    rw [same]
    by_cases hb : a = b
    · subst hb
      refine .inr (getPoint_writePoints (w := (512 + 8 * a.val + k, axisQuantity s (getAxis s a) k)) clean
        (List.mem_map.2 ⟨k, by simp; omega, rfl⟩) (by dsimp only; omega) (fun v hv e => ?_))
      obtain ⟨j, -, rfl⟩ := List.mem_map.1 hv
      obtain rfl : j = k := by simp only [Config.axisPoint] at e; omega
      rfl
    · refine h.imp (fun listed => (List.mem_cons.1 listed).resolve_left hb) fun held => ?_
      rw [publishAxis, getPoint_writePoints_other (fun v hv e => ?_), held]
      obtain ⟨j, hj, rfl⟩ := List.mem_map.1 hv
      have apart : a.val ≠ b.val := fun e => hb (Fin.ext e)
      simp only [Config.axisPoint, List.mem_cons, List.not_mem_nil, or_false] at e hj
      omega

theorem getPoint_publishedOther {n : Nat} (hn : 544 ≤ n) (l : List AxisId) (s : State) :
    getPoint (l.foldl (fun t b => publishAxis b [0, 1, 2, 3, 4, 5, 6, 7] t) s) n = getPoint s n := by
  induction l generalizing s with
  | nil => rfl
  | cons b l ih =>
    rw [List.foldl_cons, ih, publishAxis, getPoint_writePoints_other (fun v hv e => ?_)]
    obtain ⟨j, hj, rfl⟩ := List.mem_map.1 hv
    simp only [Config.axisPoint, List.mem_cons, List.not_mem_nil, or_false] at e hj
    omega

theorem getPoint_restartPublish (s : State) (c : Clean s) :
    getPoint (restartPublish s) 697 =
      { value := if s.link.bridge = .heard then 1 else 0, quality := .fresh, age := 0 } ∧
    (∀ (a : AxisId) (k : Nat), k < 8 → getPoint (restartPublish s) (512 + 8 * a.val + k) =
      { value := BitVec.ofNat 16 (axisQuantity s (getAxis s a) k), quality := .fresh, age := 0 }) ∧
    ∀ n, 544 ≤ n → n ≠ 697 → getPoint (restartPublish s) n = getPoint s n := by
  have clean := (Beside.foldl (fun t a => beside_publishAxis a [0, 1, 2, 3, 4, 5, 6, 7] t) allAxes s).clean c
  unfold restartPublish
  refine ⟨?_, fun a k hk => ?_, fun n hn bridge => ?_⟩
  · refine (getPoint_writePoints (w := (Config.bridgePoint, if s.link.bridge = .heard then 1 else 0))
      clean List.mem_cons_self (by simp [Config.bridgePoint]) (by simp)).trans ?_
    split <;> rfl
  · rw [getPoint_writePoints_other (by simp [Config.bridgePoint]; omega)]
    exact getPoint_published a hk allAxes s c (.inl (mem_allAxes a))
  · rw [getPoint_writePoints_other (by simp [Config.bridgePoint]; omega), getPoint_publishedOther hn]

theorem getPoint_restartOwners (s : State) (c : Clean s) {n : Nat} (hn : n < 24) :
    getPoint (restartOwners s) (672 + n) =
      { value := BitVec.ofNat 16 (ownerPriority (restartOwners s).calls n), quality := .fresh, age := 0 } := by
  have calls : (restartOwners s).calls = (recompute s).calls := by
    obtain ⟨ps, es, written⟩ := writePoints_cases (ownerWrites (recompute s).calls) (recompute s)
    rw [restartOwners, written]
  rw [calls]
  refine getPoint_writePoints (w := (672 + n, ownerPriority (recompute s).calls n))
    ((beside_recompute s).clean c) (List.mem_map.2 ⟨n, List.mem_range.2 hn, rfl⟩) (by dsimp only; omega)
    (fun v hv e => ?_)
  obtain ⟨j, -, rfl⟩ := List.mem_map.1 hv
  obtain rfl : j = n := by simp only [Config.ownerPoint] at e; omega
  rfl

/-! ## Calls started again (R162) -/

/-- R162 step 2: one call of the list before the restart. -/
def restartCall (s t : State) (c : Call) : State :=
  match startsAgain s c, Tab.get? s.templates c.template with
  | some z, some tpl => joinCall (newCall t c.template tpl (.zone z) tpl.zones) t
  | _, _ => t

theorem restartCalls_eq (s : State) :
    restartCalls s = s.calls.foldl (restartCall s) { s with calls := [] } := rfl

/-- A call as it joins anew, from its template. -/
structure StartedAgain (s : State) (c : Call) (tpl : Template) : Prop where
  template : Tab.get? s.templates c.template = some tpl
  state : c.state = .waiting
  priority : c.priority = tpl.priority
  source : c.source = tpl.source
  base : c.base = tpl.zones
  chime : c.chime = (if tpl.preChime then .due else .finished)
  remaining : c.remaining = (if tpl.duration = 0 then none else some (tpl.duration * 10))

theorem startsAgain_eq_some {s : State} {c : Call} {z : Nat} : startsAgain s c = some z ↔
    c.starter = .zone z ∧ c.priority = 0 ∧ ∃ w, Tab.get? s.zones z = some w ∧ w.state.shuts = true := by
  unfold startsAgain
  cases c.starter with
  | zone y =>
    dsimp only
    rw [Starter.zone.injEq]
    cases hw : Tab.get? s.zones y with
    | none =>
      refine ⟨(by simp), ?_⟩
      rintro ⟨rfl, -, w, hz, -⟩
      cases hw.symm.trans hz
    | some w =>
      dsimp only
      rw [ite_eq_iff]
      simp only [Option.some.injEq, reduceCtorEq, and_false, or_false]
      refine ⟨fun ⟨⟨priority, shuts⟩, same⟩ => ⟨same, priority, w, same ▸ hw, shuts⟩, ?_⟩
      rintro ⟨rfl, priority, v, hz, shuts⟩
      cases hw.symm.trans hz
      exact ⟨⟨priority, shuts⟩, rfl⟩
  | _ => simp

/-- R162 step 2: the calls of the list that start again. -/
def comesBack (s : State) (c : Call) : Bool :=
  decide (c.priority = 0) && (Tab.get? s.templates c.template).isSome &&
    match c.starter with
    | .zone z => (Tab.get? s.zones z).any (fun w => decide (w.state = .closing) ||
        decide (w.state = .secured) || decide (w.state = .incomplete))
    | _ => false

theorem comesBack_eq (s : State) (c : Call) :
    comesBack s c = ((startsAgain s c).isSome && (Tab.get? s.templates c.template).isSome) := by
  rw [comesBack, Bool.and_right_comm]
  congr 1
  rw [Bool.eq_iff_iff, Option.isSome_iff_exists]
  simp only [startsAgain_eq_some]
  cases c.starter with
  | zone z =>
    cases hw : Tab.get? s.zones z with
    | none => simp [hw]
    | some w => cases hs : w.state <;> simp [hw, hs, ZoneState.shuts]
  | _ => simp

theorem joinCall_calls (c : Call) (s : State) : (joinCall c s).calls = s.calls ++ [c] := by
  rw [joinCall, callReport_calls]

theorem restartCall_of_again {s : State} (t : State) {c : Call}
    (h : ((startsAgain s c).isSome && (Tab.get? s.templates c.template).isSome) = true) :
    ∃ d tpl, (restartCall s t c).calls = t.calls ++ [d] ∧ d.template = c.template ∧ d.starter = c.starter ∧
      StartedAgain s d tpl := by
  obtain ⟨again, valid⟩ := Bool.and_eq_true _ _ ▸ h
  obtain ⟨z, hz⟩ := Option.isSome_iff_exists.1 again
  obtain ⟨tpl, ht⟩ := Option.isSome_iff_exists.1 valid
  obtain ⟨starter, -⟩ := startsAgain_eq_some.1 hz
  refine ⟨newCall t c.template tpl (.zone z) tpl.zones, tpl, ?_, rfl, starter.symm, ht, rfl, rfl, rfl, rfl, rfl, rfl⟩
  unfold restartCall
  rw [hz, ht]
  exact joinCall_calls _ t

theorem restartCall_of_not {s : State} (t : State) {c : Call}
    (h : ((startsAgain s c).isSome && (Tab.get? s.templates c.template).isSome) = false) :
    restartCall s t c = t := by
  unfold restartCall
  split
  next hz ht => simp [hz, ht] at h
  next => rfl

theorem restartCall_foldl (s : State) (l : List Call) :
    ∀ t : State, (∀ c ∈ t.calls, ∃ tpl, StartedAgain s c tpl) →
    (l.foldl (restartCall s) t).calls.map (fun c => (c.template, c.starter)) =
      t.calls.map (fun c => (c.template, c.starter)) ++
        (l.filter (comesBack s)).map (fun c => (c.template, c.starter)) ∧
    ∀ c ∈ (l.foldl (restartCall s) t).calls, ∃ tpl, StartedAgain s c tpl := by
  induction l with
  | nil => exact fun t h => ⟨(List.append_nil _).symm, h⟩
  | cons c l ih =>
    intro t h
    rw [List.foldl_cons]
    cases again : comesBack s c with
    | true =>
      obtain ⟨d, tpl, calls, template, starter, started⟩ := restartCall_of_again t ((comesBack_eq s c).symm.trans again)
      obtain ⟨names, all⟩ := ih (restartCall s t c) (fun e he => by
        rw [calls, List.mem_append, List.mem_singleton] at he
        exact he.elim (h e) fun same => ⟨tpl, same ▸ started⟩)
      refine ⟨?_, all⟩
      rw [names, calls, List.filter_cons_of_pos again]
      simp [template, starter]
    | false =>
      rw [restartCall_of_not t ((comesBack_eq s c).symm.trans again), List.filter_cons_of_neg (by simp [again])]
      exact ih t h

/-! ## Doors and zones (R122, R146) -/

theorem restartDoor_doors {d : Nat} {x : Door} {s : State} (hx : Tab.get? s.doors d = some x) :
    (restartDoor d s).doors =
      Tab.set s.doors d (deriveDoor s { x with inFlight := .none, remaining := 0, jam := false }) := by
  unfold restartDoor
  rw [hx]
  exact (beside_writePoints _ _).doors

theorem doorwise_restartDoor : Doorwise restartDoor
    (fun s x => deriveDoor s { x with inFlight := .none, remaining := 0, jam := false }) where
  keeps d s := (keepsAll_restartDoor d s).toKeeps
  other d e s h := by
    cases hx : Tab.get? s.doors d with
    | none => rw [restartDoor, hx]
    | some x => rw [restartDoor_doors hx, Tab.get?_set_other _ _ _ _ h]
  same d x s hx := by rw [restartDoor_doors hx, Tab.get?_set_same]
  congr s t x proofs := SameProofs.derive (x := { x with inFlight := .none, remaining := 0, jam := false }) proofs

theorem restartDoors_doors {s : State} {d : Nat} {x : Door} (sorted : Tab.Sorted s.doors = true)
    (hx : Tab.get? s.doors d = some x) (closed : x.cfg.closedPoint ≤ 511) (opened : x.cfg.openPoint ≤ 511) :
    Tab.get? (restartDoors s).doors d =
      some (deriveDoor s { x with inFlight := .none, remaining := 0, jam := false }) := by
  have all := (doorwise_restartDoor.foldl_filter (fun _ => true) sorted hx).2 rfl closed opened
  rwa [List.filter_true] at all

theorem Tab.set_set {α : Type} (t : Tab α) (n : Nat) (v w : α) : Tab.set (Tab.set t n v) n w = Tab.set t n w := by
  induction t with
  | nil => simp [Tab.set]
  | cons e t ih =>
    obtain ⟨k, x⟩ := e
    simp only [Tab.set]
    split_ifs with below same
    · simp [Tab.set]
    · simp [Tab.set]
    · simp [Tab.set, below, same, ih]

/-- R130: a zone without a step to take leaves CLOSING by the judgement of its own doors. -/
theorem leaveClosing_setZone (z : Nat) (v : Zone) (s : State) : (leaveClosing z (setZone z v s)).1 =
    setZone z { v with state := judgeOwn s z, cursor := none, wait := .none } s := by
  have hv : Tab.get? (setZone z v s).zones z = some v := Tab.get?_set_same _ _ _
  unfold leaveClosing modifyZone
  rw [hv]
  exact congrArg (fun zs => { s with zones := zs }) (Tab.set_set s.zones z v _)

theorem judgeOwn_of_closed {s : State} {z : Nat} (h : ∀ e ∈ ownDoors s z, doorClosed s e.1 = true) :
    judgeOwn s z = .secured := if_pos (List.all_eq_true.2 h)

theorem judgeOwn_of_open {s : State} {z : Nat} (h : ∃ e ∈ ownDoors s z, doorClosed s e.1 = false) :
    judgeOwn s z = .incomplete := by
  obtain ⟨e, he, out⟩ := h
  exact if_neg fun all => by simp [List.all_eq_true.1 all e he] at out

/-! Table 7-8: a zone by its state, with what it keeps through the restart. -/

section
variable {z : Nat} {w v : Zone} {s : State} (hw : Tab.get? s.zones z = some w)
  (hv : v = { w with timer := 0, alertCall := none, cursor := none, wait := .none, reclose := none })
include hw hv

theorem restartZone_of_still (state : w.state = .normal ∨ w.state = .secured ∨ w.state = .incomplete) :
    restartZone z s = setZone z v s := by
  rw [restartZone, hw, hv]
  dsimp only
  rcases state with state | state | state <;> rw [state]

theorem restartZone_of_alert (state : w.state = .alert) :
    restartZone z s = startAlertCall z (setZone z { v with timer := w.cfg.alertTime } s) := by
  rw [restartZone, hw, hv]
  dsimp only
  rw [state]

theorem restartZone_of_rerun (state : w.state = .closing) (policy : w.cfg.policy = .rerun)
    (program : w.cfg.program ≠ none) : restartZone z s = (walkFrom z 1 (setZone z v s)).1 := by
  rw [restartZone, hw, hv]
  dsimp only
  rw [state, policy]
  exact if_pos (Option.isSome_iff_ne_none.2 program)

theorem restartZone_of_concludes (state : w.state = .closing)
    (concludes : w.cfg.policy = .conclude ∨ w.cfg.program = none) :
    restartZone z s = setZone z { v with state := judgeOwn s z } s := by
  have left : restartZone z s = (leaveClosing z (setZone z v s)).1 := by
    rw [restartZone, hw, hv]
    dsimp only
    rw [state]
    rcases concludes with policy | program
    · rw [policy]
    · rw [program]
      cases w.cfg.policy <;> rfl
  rw [left, leaveClosing_setZone, hv]

end

end Sys2Proof.Machine

/-! # Proofs: what a RESTART leaves in every block (R174, R182) -/

namespace Sys2Proof.Machine

open Sys2Proof

/-! ## The completion of a RESTART (R174) -/

section
variable (r : Request) (held reports requests : Nat) (u : State)

theorem keepsAll_restartReports :
    KeepsAll { u with rebuilding := none } (restartReports r held reports requests u) :=
  ((keepsAll_alarm _ _).trans (keepsAll_replyTo r _ _ _)).trans
    (KeepsAll.foldl (fun t x => keepsAll_offerReport x t) _ _)

theorem beside_restartReports :
    Beside { u with rebuilding := none } (restartReports r held reports requests u) :=
  ((beside_alarm _ _).trans (beside_routine _ _)).trans (Beside.foldl (fun t x => beside_offerReport x t) _ _)

/-- What RESTARTED, the REPLY, the held reports and the triggers leave of a part whose axes are at rest. -/
theorem restartReports_frozen :
    frozenOf { restartReports r held reports requests u with manage := [] } =
      { frozenOf u with manage := [], rebuilds := false } := by
  have kept := (keepsAll_restartReports r held reports requests u).frozen
  generalize restartReports r held reports requests u = v at kept ⊢
  have same : frozenOf { v with manage := [] } = { frozenOf v with manage := [] } := rfl
  rw [same, kept]
  rfl

theorem restartReports_manage : (restartReports r held reports requests u).manage = u.manage := by
  have kept := congrArg Frozen.manage (keepsAll_restartReports r held reports requests u).frozen
  exact kept

end

theorem restartReports_eq (r : Request) (held reports requests : Nat) (u : State) :
    restartReports r held reports requests u = (u.rebuilding.getD []).foldl (fun t x => offerReport x t)
      (replyTo r .ok [] (offerReport ⟨true, .restarted u.mode held reports requests⟩
        { u with rebuilding := none })) := rfl

section
variable {r : Request} {rest : List Request} {s : State} (head : s.manage = r :: rest)
include head

theorem restartFront_manage : (restartFront (restartBegin s)).manage = [r] := congrArg (List.take 1) head

theorem rebuild_manage : (rebuild (restartBegin s)).manage = [r] := by
  have kept := congrArg Frozen.manage (keeps_rebuild (restartBegin s)).frozen
  generalize rebuild (restartBegin s) = u at kept ⊢
  exact kept.trans (restartFront_manage head)

theorem exec_restart (body : r.body = .restart) : exec .restart s =
    .next (settle (evalTriggers { restartReports r s.hold.length s.reports.length rest.length
      (rebuild (restartBegin s)) with manage := [] })) := by
  have rebuilt := rebuild_manage head
  simp only [exec, execRestart, head, body, warmRestart]
  generalize rebuild (restartBegin s) = u at rebuilt ⊢
  rw [List.length_cons, Nat.add_sub_cancel, restartReports_manage, rebuilt]
  rfl

end

/-! ## What stands after it -/

theorem atRest_restartControl {s : State} (h : AtRest s) : AtRest (restartControl s) := by
  obtain ⟨cs, m, f, -, -, -, control⟩ := restartControl_cases s
  exact h.of_axes (by rw [control, (beside_writePoints _ _).axes])

theorem atRest_rebuild (s : State) : AtRest (rebuild s) :=
  atRest_restartControl (((atRest_restartFront s).stays (stays_restartBlocks s)).stays
    (beside_restartPublish (restartBlocks s)).stays)

/-- What follows the rebuild of a part without held orders: it keeps what the rebuild left. -/
theorem restarted_keeps (r : Request) (held reports requests : Nat) {u t : State} (empty : u.hold = [])
    (h : AtRest u) (ht : t = settle (evalTriggers
      { restartReports r held reports requests u with manage := [] })) :
    frozenOf t = { frozenOf u with manage := [], rebuilds := false } ∧ t.hold = [] ∧ AtRest t ∧
    ∀ n, n ≤ 511 → getPoint t n = getPoint u n := by
  have frozen := restartReports_frozen r held reports requests u
  have kept := keepsAll_restartReports r held reports requests u
  have beside := beside_restartReports r held reports requests u
  have noHold : (restartReports r held reports requests u).hold = [] := kept.held empty
  have points (n : Nat) (hn : n ≤ 511) : getPoint (restartReports r held reports requests u) n = getPoint u n :=
    kept.points n hn
  have axes : (restartReports r held reports requests u).axes = u.axes := beside.axes
  have still : AtRest { restartReports r held reports requests u with manage := [] } := h.of_axes axes
  generalize restartReports r held reports requests u = v at *
  have triggers := keepsAll_evalTriggers { v with manage := [] }
  have calm := (rests_evalTriggers { v with manage := [] }).of still
  generalize evalTriggers { v with manage := [] } = w at *
  have after := triggers.trans (keepsAll_settle w)
  rw [ht]
  exact ⟨after.frozen.trans frozen, after.held noHold,
    (still.stays calm).stays ((rests_settle (triggers.held noHold)).of (still.stays calm)),
    fun n hn => (after.points n hn).trans (points n hn)⟩

theorem restarted_leaves {r : Request} {rest : List Request} {s : State} (head : s.manage = r :: rest)
    (body : r.body = .restart) :
    ∃ t, exec .restart s = .next t ∧ t.manage = [] ∧ t.staging = none ∧ t.hold = [] ∧ t.rebuilding = none ∧
      t.link.errB = s.link.errB ∧ t.link.errD = s.link.errD ∧
      t.stations = (restartFront (restartBegin s)).stations ∧ AtRest t ∧
      ∀ n, n ≤ 511 → getPoint t n = getPoint (restartFront (restartBegin s)) n := by
  have rebuilt := keeps_rebuild (restartBegin s)
  have executed := exec_restart head body
  have still := atRest_rebuild (restartBegin s)
  have begun : frozenOf (restartFront (restartBegin s)) = { frozenOf s with
      manage := s.manage.take 1, staging := none, rebuilds := true
      stations := (restartFront (restartBegin s)).stations } := rfl
  have empty : (rebuild (restartBegin s)).hold = [] := rebuilt.held rfl
  have low := rebuilt.points
  have frozen := rebuilt.frozen.trans begun
  generalize rebuild (restartBegin s) = u at executed still empty low frozen
  obtain ⟨kept, hold, calm, points⟩ := restarted_keeps r s.hold.length s.reports.length rest.length
    empty still rfl
  refine ⟨_, executed, congrArg Frozen.manage kept, ?_, hold, ?_, ?_, ?_, ?_, calm, fun n hn =>
    (points n hn).trans (low n hn)⟩
  · exact (congrArg Frozen.staging kept).trans (congrArg Frozen.staging frozen)
  · exact Option.isSome_eq_false_iff.1 (congrArg Frozen.rebuilds kept) |> Option.isNone_iff_eq_none.1
  · exact (congrArg Frozen.errB kept).trans (congrArg Frozen.errB frozen)
  · exact (congrArg Frozen.errD kept).trans (congrArg Frozen.errD frozen)
  · exact (congrArg Frozen.stations kept).trans (congrArg Frozen.stations frozen)

/-! ## The points after the rebuild -/

/-- Mode control, the axes and the calling unit write the points from 512 up that are theirs. -/
theorem getPoint_owned {b u : State} (clean : Clean b) (hu : u = restartControl (restartPublish (restartOwners b))) :
    getPoint u 696 = { value := BitVec.ofNat 16 u.mode.code, quality := .fresh, age := 0 } ∧
    getPoint u 697 = { value := if u.link.bridge = .heard then 1 else 0, quality := .fresh, age := 0 } ∧
    getPoint u 698 = { value := BitVec.ofNat 16 (activeSet u).toNat, quality := .fresh, age := 0 } ∧
    (∀ (a : AxisId) (k : Nat), k < 8 → getPoint u (512 + 8 * a.val + k) =
      { value := BitVec.ofNat 16 (axisQuantity u (getAxis u a) k), quality := .fresh, age := 0 }) ∧
    (∀ n, n < 24 → getPoint u (672 + n) =
      { value := BitVec.ofNat 16 (ownerPriority u.calls n), quality := .fresh, age := 0 }) := by
  have owners (n : Nat) (hn : n < 24) := getPoint_restartOwners b clean hn
  have owned := (beside_restartOwners b).clean clean
  generalize restartOwners b = v at hu owners owned
  obtain ⟨mode, faults, others⟩ := getPoint_restartControl (restartPublish v)
    ((beside_restartPublish v).clean owned)
  obtain ⟨bridge, quantities, below⟩ := getPoint_restartPublish v owned
  have left : u.link = v.link ∧ u.axes = v.axes ∧ u.calls = v.calls := by
    obtain ⟨cs, m, f, -, -, -, control⟩ := restartControl_cases (restartPublish v)
    obtain ⟨ps, es, written⟩ := writePoints_cases [(696, m.code), (698, f)]
      { restartPublish v with classes := cs, mode := m }
    obtain ⟨qs, fs, published⟩ := restartPublish_cases v
    rw [hu, control, written, published]
    exact ⟨rfl, rfl, rfl⟩
  obtain ⟨link, axes, calls⟩ := left
  rw [← hu] at mode faults others
  refine ⟨mode, ?_, faults, fun a k hk => ?_, fun n hn => ?_⟩
  · rw [others 697 (by decide) (by decide), bridge, link]
  · have ha := a.isLt
    rw [others _ (by omega) (by omega), quantities a k hk, axisQuantity_congr axes, getAxis, getAxis, axes]
  · rw [others _ (by omega) (by omega), below _ (by omega) (by omega), owners n hn, calls]

/-! ## O53 -/

theorem mode_rebuild {s : State} (rebuilding : s.rebuilding ≠ none) : (rebuild s).mode =
    if s.mode = .config then .config else if (safeClass (rebuild s)).isSome then .safe else .run := by
  have stands := (beside_restartPublish (restartBlocks s)).mode.trans
    ((stays_restartBlocks s).mode (Option.isSome_iff_ne_none.2 rebuilding))
  have same : (restartFront s).mode = s.mode := rfl
  rw [← same, ← stands]
  exact mode_restartControl (restartPublish (restartBlocks s))

theorem getClass_rebuild (s : State) (c : FaultClass) : getClass (rebuild s) c =
    { active := decide (0 < contributors (rebuild s) c), count := contributors (rebuild s) c, timer := 0 } :=
  getClass_restartControl (restartPublish (restartBlocks s)) c

theorem getPoint_rebuild {s u : State} (hu : u = rebuild s) :
    getPoint u 696 = { value := BitVec.ofNat 16 u.mode.code, quality := .fresh, age := 0 } ∧
    getPoint u 697 = { value := if u.link.bridge = .heard then 1 else 0, quality := .fresh, age := 0 } ∧
    getPoint u 698 = { value := BitVec.ofNat 16 (activeSet u).toNat, quality := .fresh, age := 0 } ∧
    (∀ (a : AxisId) (k : Nat), k < 8 → getPoint u (512 + 8 * a.val + k) =
      { value := BitVec.ofNat 16 (axisQuantity u (getAxis u a) k), quality := .fresh, age := 0 }) ∧
    (∀ n, n < 24 → getPoint u (672 + n) =
      { value := BitVec.ofNat 16 (ownerPriority u.calls n), quality := .fresh, age := 0 }) :=
  getPoint_owned (clean_restartZones s) (hu.trans (rebuild_eq s))

/-- Settles O53: the completion is unfolded once; what the later blocks keep is `Keeps`, what they leave of
axes at rest and of a clean image is `Rests`, and calls, doors and zones are read off their own restarts. -/
theorem restartRebuildsTheBlocks : Obligations.RestartRebuildsTheBlocks := by
  unfold Obligations.RestartRebuildsTheBlocks
  refine ⟨?_, ?_, ?_, ?_, ?_, ?_⟩
  · intro r rest s u v head body hu hv
    rw [exec_restart head body, ← hu, restartReports_eq, ← hv]
  · intro r rest s head body
    obtain ⟨t, executed, manage, staging, hold, rebuilding, errB, errD, stations, calm, points⟩ :=
      restarted_leaves head body
    refine ⟨t, executed, manage, staging, hold, rebuilding, errB, errD, fun n => ?_,
      fun a => ⟨calm.pending a, calm.current a, calm.run a, calm.latch a⟩, fun canonical n hn => ?_⟩
    · have same : getStation t n = getStation (restartFront (restartBegin s)) n := by
        rw [getStation, getStation, stations]
      rw [same]
      exact getStation_restartFront (restartBegin s) n
    · exact (points n hn).trans (getPoint_restartFront (s := restartBegin s) canonical.points hn)
  · intro s u hu rebuilding
    have mode := mode_rebuild rebuilding
    have classes := getClass_rebuild s
    obtain ⟨modePoint, bridge, faults, quantities, owners⟩ := getPoint_rebuild hu
    rw [← hu] at mode classes
    refine ⟨classes, fun config => ?_, fun c running contributes response => ?_, fun running calm => ?_,
      modePoint, bridge, faults, quantities, owners⟩
    · rw [mode, if_pos config]
    · have active : (getClass u c).active = true := by rw [classes c]; exact decide_eq_true contributes
      rw [mode, if_neg running, if_pos (safeClass_isSome active response)]
    · have none : safeClass u = none := safeClass_eq_none fun c active => by
        rw [classes c] at active
        exact calm c (of_decide_eq_true active)
      rw [mode, if_neg running, none]
      rfl
  · intro s u hu
    rw [restartCalls_eq] at hu
    obtain ⟨names, started⟩ := restartCall_foldl s s.calls { s with calls := [] }
      (fun c hc => absurd hc List.not_mem_nil)
    rw [← hu] at names started
    refine ⟨names, fun c hc => ?_⟩
    obtain ⟨tpl, h⟩ := started c hc
    exact ⟨tpl, h.template, h.state, h.priority, h.source, h.base, h.chime, h.remaining⟩
  · exact fun s d x canonical hx closed opened => restartDoors_doors canonical.doors hx closed opened
  · intro s z w v hw hv
    refine ⟨restartZone_of_still hw hv, restartZone_of_alert hw hv, restartZone_of_rerun hw hv,
      fun state concludes => ?_⟩
    rw [restartZone_of_concludes hw hv state concludes]
    exact ⟨fun closed => by rw [judgeOwn_of_closed closed], fun opened => by rw [judgeOwn_of_open opened]⟩

end Sys2Proof.Machine

/-! # Proofs: table records as bytes, read and written back (R175)

A reader takes numbers from the bytes of a record, a writer puts them back. Each field that is written is
the slice of the record it was read from, so a record written back is the slices one after the other. -/

namespace Sys2Proof.Machine

open Sys2Proof

/-! ## Slices of a record -/

/-- `n` bytes of a record from byte `k` on. -/
def slice (bs : List Byte) (k n : Nat) : List Byte := (bs.drop k).take n

theorem fieldAt_eq (bs : List Byte) (k n : Nat) : fieldAt bs k n = beNat (slice bs k n) := rfl

theorem slice_length {bs : List Byte} {k n : Nat} (h : k + n ≤ bs.length) : (slice bs k n).length = n := by
  rw [slice, List.length_take, List.length_drop]
  omega

theorem slice_append_slice (bs : List Byte) {j k a : Nat} (b : Nat) (h : j = k + a) :
    slice bs k a ++ slice bs j b = slice bs k (a + b) := by
  rw [h, slice, slice, slice, List.take_add, List.drop_drop]

theorem slice_all {bs : List Byte} {n : Nat} (h : bs.length = n) : slice bs 0 n = bs := by
  rw [slice, List.drop_zero, ← h, List.take_length]

theorem slice_end {bs : List Byte} {k n : Nat} (h : bs.length = k + n) : slice bs k n = bs.drop k :=
  List.take_of_length_le (by rw [List.length_drop]; omega)

/-! ## Numbers and their bytes -/

theorem beNat_concat (bs : List Byte) (b : Byte) : beNat (bs ++ [b]) = beNat bs * 256 + b.toNat := by
  rw [beNat, List.foldl_append]
  rfl

theorem beNat_lt (bs : List Byte) : beNat bs < 256 ^ bs.length := by
  induction bs using List.reverseRecOn with
  | nil => exact Nat.one_pos
  | append_singleton bs b ih =>
    have hb : b.toNat < 256 := b.isLt
    rw [beNat_concat, List.length_append, List.length_singleton, pow_succ]
    omega

/-- The bytes of the number that bytes spell. -/
theorem beBytes_beNat (bs : List Byte) : beBytes bs.length (beNat bs) = bs := by
  induction bs using List.reverseRecOn with
  | nil => rfl
  | append_singleton bs b ih =>
    have hb : b.toNat < 256 := b.isLt
    have high : (beNat bs * 256 + b.toNat) / 256 = beNat bs := by omega
    have low : BitVec.ofNat 8 (beNat bs * 256 + b.toNat) = b := by
      apply BitVec.eq_of_toNat_eq
      rw [BitVec.toNat_ofNat]
      omega
    rw [beNat_concat, List.length_append, List.length_singleton, beBytes, high, low, ih]

section
variable {bs : List Byte} {k n : Nat}

theorem fieldAt_lt (h : k + n ≤ bs.length) : fieldAt bs k n < 256 ^ n := by
  have small := beNat_lt (slice bs k n)
  rwa [slice_length h] at small

theorem beBytes_fieldAt (h : k + n ≤ bs.length) : beBytes n (fieldAt bs k n) = slice bs k n := by
  have all := beBytes_beNat (slice bs k n)
  rwa [slice_length h] at all

theorem byte1_byteAt (h : k + 1 ≤ bs.length) : byte1 (byteAt bs k) = slice bs k 1 := beBytes_fieldAt h

theorem byteAt_lt (h : k + 1 ≤ bs.length) : byteAt bs k < 256 := fieldAt_lt h

theorem toSigned_emod {v : Nat} (h : v < 2 ^ (8 * n)) : (toSigned n v % ((2 ^ (8 * n) : Nat) : Int)).toNat = v := by
  unfold toSigned
  split
  · rw [Int.emod_eq_of_lt (by omega) (by exact_mod_cast h)]
    rfl
  · rw [Int.sub_emod_right, Int.emod_eq_of_lt (by omega) (by exact_mod_cast h)]
    rfl

theorem beSigned_toSigned (h : k + n ≤ bs.length) : beSigned n (toSigned n (fieldAt bs k n)) = slice bs k n := by
  have small := fieldAt_lt h
  rw [show (256 : Nat) = 2 ^ 8 from rfl, ← pow_mul] at small
  rw [beSigned, toSigned_emod small, beBytes_fieldAt h]

/-- A word of 16 or 24 bits that was read from its bytes. -/
theorem beBytes_ofNat {w : Nat} (h : k + n ≤ bs.length) (hw : w = 8 * n) :
    beBytes n (BitVec.ofNat w (fieldAt bs k n)).toNat = slice bs k n := by
  have small := fieldAt_lt h
  rw [show (256 : Nat) = 2 ^ 8 from rfl, ← pow_mul, ← hw] at small
  rw [BitVec.toNat_ofNat, Nat.mod_eq_of_lt small, beBytes_fieldAt h]

end

/-! ## Fields with a range -/

theorem inRange_eq_some {lo hi n m : Nat} : inRange lo hi n = some m ↔ n = m ∧ lo ≤ n ∧ n ≤ hi := by
  unfold inRange
  split_ifs with within
  · exact Option.some.injEq n m ▸ ⟨fun same => ⟨same, within⟩, And.left⟩
  · exact ⟨fun none => (nomatch none), fun found => absurd found.2 within⟩

theorem optByte_of_read {hi n : Nat} {o : Option Nat} (h : readOpt hi n = some o) : optByte o = byte1 n := by
  unfold readOpt at h
  split_ifs at h with absent
  · obtain rfl : none = o := Option.some.inj h
    rw [absent]
    rfl
  · obtain rfl : some n = o := Option.some.inj h
    rfl

theorem optWord_of_read {hi n : Nat} {o : Option Nat} (h : readOptWord hi n = some o) :
    optWord o = beBytes 2 n := by
  unfold readOptWord at h
  split_ifs at h with absent
  · obtain rfl : none = o := Option.some.inj h
    rw [absent]
    rfl
  · obtain rfl : some n = o := Option.some.inj h
    rfl

theorem portCode_of_read {n : Nat} {p : Port} (h : readPort n = some p) : portCode p = n := by
  unfold readPort at h
  split_ifs at h with b d
  · obtain rfl : .b = p := Option.some.inj h
    exact b.symm
  · obtain rfl : .d = p := Option.some.inj h
    exact d.symm

theorem yesNo_of_read {n : Nat} {b : Bool} (h : readYesNo n = some b) : yesNo b = byte1 n := by
  unfold readYesNo at h
  split_ifs at h with no yes
  · obtain rfl : false = b := Option.some.inj h
    rw [no]
    rfl
  · obtain rfl : true = b := Option.some.inj h
    rw [yes]
    rfl

theorem enumCode_of_read {α : Type} [DecidableEq α] {values : List α} {n : Nat} {a : α}
    (apart : values.Nodup) (h : readEnum values n = some a) : enumCode values a = byte1 n := by
  obtain ⟨inside, here⟩ := List.getElem?_eq_some_iff.1 h
  have place : values.findIdx (fun b => decide (b = a)) = n := by
    have found := apart.idxOf_getElem n inside
    rw [here] at found
    exact found
  rw [enumCode, place]

theorem qualifierByte_of_read {n : Nat} {q : Qualifier} (h : readQualifier n = some q) :
    qualifierByte q = byte1 n := by
  unfold readQualifier at h
  split_ifs at h with any
  · obtain rfl : .any = q := Option.some.inj h
    rw [any]
    rfl
  · have code := enumCode_of_read (values := qualifiers) (by decide) h
    cases q with
    | any =>
      exact absurd (List.mem_of_getElem? h) (by decide)
    | up => exact code
    | down => exact code

/-! ## Terms, comparators, couplings and sources -/

theorem termBytes_of_read {bs : List Byte} {off : Nat} {t : Term} (h : readTerm bs off = some t)
    (room : off + 8 ≤ bs.length) : termBytes t = slice bs off 8 := by
  simp only [readTerm, Option.bind_eq_bind, Option.bind_eq_some_iff, Option.pure_def, Option.some.injEq] at h
  obtain ⟨point, hp, cond, hc, stale, hs, rfl⟩ := h
  simp only [termBytes]
  rw [optWord_of_read hp, beBytes_fieldAt (by omega), beBytes_ofNat (by omega) rfl,
    enumCode_of_read (by decide) hc, byte1_byteAt (by omega), beBytes_ofNat (by omega) rfl,
    enumCode_of_read (by decide) hs, byte1_byteAt (by omega)]
  simp (disch := omega) only [slice_append_slice, Nat.reduceAdd]

theorem comparatorBytes_of_read {bs : List Byte} {off : Nat} {c : Comparator}
    (h : readComparator bs off = some c) (room : off + 7 ≤ bs.length) : comparatorBytes c = slice bs off 7 := by
  simp only [readComparator, Option.bind_eq_bind, Option.bind_eq_some_iff, Option.pure_def,
    Option.some.injEq] at h
  obtain ⟨source, hs, cond, hc, qualifier, hq, action, ha, rfl⟩ := h
  simp only [comparatorBytes]
  rw [enumCode_of_read (by decide) hs, byte1_byteAt (by omega), enumCode_of_read (by decide) hc,
    byte1_byteAt (by omega), beSigned_toSigned (by omega), qualifierByte_of_read hq, byte1_byteAt (by omega),
    enumCode_of_read (by decide) ha, byte1_byteAt (by omega)]
  simp (disch := omega) only [slice_append_slice, Nat.reduceAdd]

/-- A coupling that is not NONE. -/
theorem couplingBytes_of_read {bs : List Byte} {off self : Nat} {k : Coupling}
    (h : readCoupling bs off self = some (some k)) (room : off + 6 ≤ bs.length) :
    couplingBytes (some k) = slice bs off 6 := by
  unfold readCoupling at h
  split_ifs at h with none leader own
  · cases h
  · simp only [Option.bind_eq_bind, Option.bind_eq_some_iff, Option.pure_def, Option.some.injEq,
      inRange_eq_some] at h
    obtain ⟨nf, ⟨rfl, -⟩, nl, ⟨rfl, -⟩, sense, ⟨rfl, -, binary⟩, rfl⟩ := h
    have opposite : yesNo (decide (byteAt bs (off + 5) = 1)) = byte1 (byteAt bs (off + 5)) := by
      rcases Nat.le_one_iff_eq_zero_or_eq_one.1 binary with zero | one
      · rw [zero]; rfl
      · rw [one]; rfl
    simp only [couplingBytes]
    rw [opposite, byte1_byteAt (by omega), beBytes_fieldAt (by omega), beBytes_fieldAt (by omega),
      byte1_byteAt (by omega)]
    simp (disch := omega) only [slice_append_slice, Nat.reduceAdd]

theorem byteAt_of_noCoupling {bs : List Byte} {off self : Nat} (h : readCoupling bs off self = some none) :
    byteAt bs off = 255 := by
  unfold readCoupling at h
  split_ifs at h with absent
  · exact absent
  · simp [Option.bind_eq_some_iff] at h

theorem sourceBytes_of_read {kind n : Nat} {x : CallSource} (h : readSource kind n = some x) :
    sourceBytes x = byte1 kind ++ byte1 n := by
  unfold readSource at h
  split_ifs at h with high voice tone
  · obtain rfl : .voice n = x := Option.some.inj h
    rw [voice]
    rfl
  · obtain rfl : .tone n = x := Option.some.inj h
    rw [tone]
    rfl

/-! ## Records that are written back byte for byte -/

theorem readProof_eq {n m : Nat} (h : readProof n = some m) : n = m := by
  unfold readProof at h
  split_ifs at h
  exact (inRange_eq_some.1 h).1

section
variable {bs : List Byte}

theorem stationBytes_of_read {e : StationEntry} (length : bs.length = 3)
    (h : readStation bs = some (some e)) : stationBytes e = bs := by
  simp only [readStation, Option.bind_eq_bind, Option.bind_eq_some_iff, Option.pure_def, Option.some.injEq,
    inRange_eq_some] at h
  obtain ⟨valid, hv, side, hs, limit, ⟨rfl, -⟩, entry⟩ := h
  obtain ⟨rfl, same⟩ := Option.ite_none_right_eq_some.1 entry
  obtain rfl : _ = e := Option.some.inj same
  simp only [stationBytes]
  rw [yesNo_of_read hv, portCode_of_read hs, byte1_byteAt (by omega), byte1_byteAt (by omega),
    byte1_byteAt (by omega)]
  simp (disch := omega) only [slice_append_slice, Nat.reduceAdd, slice_all]

theorem audioZoneBytes_of_read {e : AudioZone} (length : bs.length = 3)
    (h : readAudioZone bs = some (some e)) : audioZoneBytes e = bs := by
  simp only [readAudioZone, Option.bind_eq_bind, Option.bind_eq_some_iff, Option.pure_def, Option.some.injEq,
    inRange_eq_some] at h
  obtain ⟨valid, hv, gain, ⟨rfl, -⟩, warnings, hw, entry⟩ := h
  obtain ⟨rfl, same⟩ := Option.ite_none_right_eq_some.1 entry
  obtain rfl : _ = e := Option.some.inj same
  simp only [audioZoneBytes]
  rw [yesNo_of_read hv, yesNo_of_read hw, byte1_byteAt (by omega), byte1_byteAt (by omega),
    byte1_byteAt (by omega)]
  simp (disch := omega) only [slice_append_slice, Nat.reduceAdd, slice_all]

theorem responseBytes_of_read {r : Response} (length : bs.length = 1) (h : readResponse bs = some r) :
    responseBytes r = bs := by
  rw [responseBytes, enumCode_of_read (by decide) h, byte1_byteAt (by omega), slice_all length]

theorem settingsBytes_of_read {x : Settings} (length : bs.length = 6) (h : readSettings bs = some x) :
    settingsBytes x = bs := by
  simp only [readSettings, Option.bind_eq_bind, Option.bind_eq_some_iff, Option.pure_def, Option.some.injEq,
    inRange_eq_some] at h
  obtain ⟨manager, ⟨rfl, -⟩, verdict, hv, silence, ⟨rfl, -⟩, threshold, ⟨rfl, -⟩, lost, ⟨rfl, -⟩, rfl⟩ := h
  simp only [settingsBytes]
  rw [enumCode_of_read (by decide) hv, beBytes_fieldAt (by omega)]
  simp (disch := omega) only [byte1_byteAt, slice_append_slice, Nat.reduceAdd, slice_all]

variable (valid : byteAt bs 0 = 1)
include valid

theorem yesNo_valid : yesNo true = byte1 (byteAt bs 0) := by rw [valid]; rfl

theorem mapBytes_of_read {m : MapEntry} (length : bs.length = 8) (h : readMap bs = some m) :
    mapBytes m = bs := by
  simp only [readMap, Option.bind_eq_bind, Option.bind_eq_some_iff, Option.pure_def, Option.some.injEq,
    inRange_eq_some] at h
  obtain ⟨station, ⟨rfl, -⟩, point, hp, limit, ⟨rfl, -⟩, retention, hr, rfl⟩ := h
  obtain rfl : fieldAt bs 3 2 = point := by
    split_ifs at hp
    exact (inRange_eq_some.1 hp).1
  simp only [mapBytes]
  rw [yesNo_valid valid, enumCode_of_read (by decide) hr]
  simp (disch := omega) only [byte1_byteAt, beBytes_fieldAt, slice_append_slice, Nat.reduceAdd, slice_all]

theorem doorBytes_of_read {c : DoorCfg} (length : bs.length = 12) (h : readDoor bs = some c) :
    doorBytes c = bs := by
  simp only [readDoor, Option.bind_eq_bind, Option.bind_eq_some_iff, Option.pure_def, Option.some.injEq,
    inRange_eq_some] at h
  obtain ⟨station, ⟨rfl, -⟩, device, ⟨rfl, -⟩, closed, hc, opened, ho, zone, ⟨rfl, -⟩, rank, ⟨rfl, -⟩,
    limit, ⟨rfl, -⟩, kind, hk, rfl⟩ := h
  obtain rfl := readProof_eq hc
  obtain rfl := readProof_eq ho
  have code : byte1 kind.code = byte1 (byteAt bs 11) := by
    rw [← enumCode_of_read (by decide) hk]
    cases kind <;> rfl
  simp only [doorBytes]
  rw [yesNo_valid valid, code]
  simp (disch := omega) only [byte1_byteAt, beBytes_fieldAt, slice_append_slice, Nat.reduceAdd, slice_all]

theorem zoneBytes_of_read {self : Nat} {c : ZoneCfg} (length : bs.length = 17)
    (h : readZone self bs = some c) : zoneBytes c = bs := by
  simp only [readZone, Option.bind_eq_bind, Option.bind_eq_some_iff, Option.pure_def,
    inRange_eq_some] at h
  obtain ⟨parent, hp, alert, ⟨rfl, -⟩, template, ht, program, hg, reclose, ⟨rfl, -⟩, policy, hy, trigger, hr,
    entry⟩ := h
  obtain ⟨-, same⟩ := Option.ite_none_left_eq_some.1 entry
  obtain rfl : _ = c := Option.some.inj same
  simp only [zoneBytes]
  rw [yesNo_valid valid, optByte_of_read hp, optByte_of_read ht, optByte_of_read hg,
    enumCode_of_read (by decide) hy, termBytes_of_read hr (by omega)]
  simp (disch := omega) only [byte1_byteAt, beBytes_fieldAt, slice_append_slice, Nat.reduceAdd, slice_all]

theorem templateBytes_of_read {x : Template} (length : bs.length = 11) (h : readTemplate bs = some x) :
    templateBytes x = bs := by
  simp only [readTemplate, Option.bind_eq_bind, Option.bind_eq_some_iff, Option.pure_def, Option.some.injEq,
    inRange_eq_some] at h
  obtain ⟨priority, ⟨rfl, -⟩, source, hs, chime, hc, duration, ⟨rfl, -⟩, gain, ⟨rfl, -⟩, rfl⟩ := h
  simp only [templateBytes]
  rw [yesNo_valid valid, sourceBytes_of_read hs, yesNo_of_read hc, beBytes_ofNat (by omega) rfl]
  simp (disch := omega) only [byte1_byteAt, beBytes_fieldAt, slice_append_slice, Nat.reduceAdd, slice_all]

end

end Sys2Proof.Machine

/-! # Proofs: rules, axis records and programs read the same after they are written back (R45, R62, R135)

Some bytes of these records carry no meaning: the bit number without a mode selector, the coupling's numbers
without a leader, the rest of a step's slot. What is written back agrees with the record elsewhere. -/

namespace Sys2Proof.Machine

open Sys2Proof

/-! ## A record with some bytes in its middle replaced -/

theorem fieldAt_patch {bs mid : List Byte} {a b : Nat} (hb : a + mid.length = b) (hl : b ≤ bs.length)
    {k n : Nat} (apart : k + n ≤ a ∨ b ≤ k) :
    fieldAt (slice bs 0 a ++ mid ++ bs.drop b) k n = fieldAt bs k n := by
  rw [slice, List.drop_zero]
  have front : (bs.take a).length = a := List.length_take_of_le (by omega)
  refine congrArg beNat ?_
  rcases apart with low | high
  · rw [List.append_assoc, List.drop_append_of_le_length (by omega),
      List.take_append_of_le_length (by rw [List.length_drop]; omega), List.drop_take, List.take_take,
      Nat.min_eq_left (by omega)]
  · have before : (bs.take a ++ mid).length = b := by rw [List.length_append, front, hb]
    rw [List.drop_append, List.drop_eq_nil_of_le (by omega), before, List.nil_append, List.drop_drop,
      Nat.add_sub_cancel' high]

theorem take_slice_drop (bs : List Byte) {a b n : Nat} (h : a + n = b) :
    slice bs 0 a ++ slice bs a n ++ bs.drop b = bs := by
  rw [slice_append_slice bs n (Nat.zero_add a).symm, h, slice, List.drop_zero, List.take_append_drop]

theorem readTerm_congr {bs cs : List Byte} {off here : Nat}
    (same : ∀ k n, k + n ≤ 8 → fieldAt cs (here + k) n = fieldAt bs (off + k) n) :
    readTerm cs here = readTerm bs off := by
  have point := same 0 2 (by omega)
  rw [Nat.add_zero, Nat.add_zero] at point
  unfold readTerm byteAt
  rw [point, same 4 1 (by omega), same 7 1 (by omega), same 2 2 (by omega), same 5 2 (by omega)]

/-! ## Rules (R45) -/

theorem readRule_congr {bs cs : List Byte} (same : ∀ k n, k + n ≤ 45 ∨ 46 ≤ k → fieldAt cs k n = fieldAt bs k n)
    (selector : readSelector cs 43 = readSelector bs 43) : readRule cs = readRule bs := by
  have term (off : Nat) (h : off + 8 ≤ 45) : readTerm cs off = readTerm bs off :=
    readTerm_congr fun k n _ => same (off + k) n (.inl (by omega))
  unfold readRule byteAt
  rw [selector, term 7 (by omega), term 15 (by omega), term 23 (by omega), term 31 (by omega),
    same 1 1 (by omega), same 2 1 (by omega), same 3 2 (by omega), same 5 1 (by omega), same 6 1 (by omega),
    same 39 2 (by omega), same 41 2 (by omega), same 46 1 (by omega), same 47 2 (by omega), same 49 1 (by omega)]

theorem originByte_of_read {n : Nat} {o : Option Port}
    (h : (if n = 255 then some none else (readPort n).map some) = some o) :
    optByte (o.map portCode) = byte1 n := by
  split_ifs at h with any
  · obtain rfl : none = o := Option.some.inj h
    rw [any]
    rfl
  · obtain ⟨p, hp, rfl⟩ := Option.map_eq_some_iff.1 h
    rw [← portCode_of_read hp]
    rfl

theorem selectorPoint_of_read {bs : List Byte} {off : Nat} {o : Option (Nat × Nat)}
    (h : readSelector bs off = some o) : readOptWord 767 (fieldAt bs off 2) = some (o.map (·.1)) := by
  simp only [readSelector, Option.bind_eq_bind, Option.bind_eq_some_iff] at h
  obtain ⟨point, hp, h⟩ := h
  cases point with
  | none =>
    obtain rfl : none = o := Option.some.inj h
    exact hp
  | some n =>
    obtain ⟨bit, -, h⟩ := Option.bind_eq_some_iff.1 h
    obtain rfl : some (n, bit) = o := Option.some.inj h
    exact hp

theorem selectorBit_of_read {bs : List Byte} {off n b : Nat} (h : readSelector bs off = some (some (n, b))) :
    byteAt bs (off + 2) = b := by
  simp only [readSelector, Option.bind_eq_bind, Option.bind_eq_some_iff] at h
  obtain ⟨point, hp, h⟩ := h
  cases point with
  | none => cases Option.some.inj h
  | some m =>
    obtain ⟨bit, hb, h⟩ := Option.bind_eq_some_iff.1 h
    obtain rfl : bit = b := (Prod.mk.inj (Option.some.inj (Option.some.inj h))).2
    exact (inRange_eq_some.1 hb).1

theorem readSelector_of_none {bs : List Byte} {off : Nat} (h : readOptWord 767 (fieldAt bs off 2) = some none) :
    readSelector bs off = some none := by
  rw [readSelector, h]
  rfl

/-- R45: a rule written back reads as the rule, byte for byte where it has a mode selector. -/
theorem readRule_ruleBytes {bs : List Byte} {r : Rule} (length : bs.length = 50) (valid : byteAt bs 0 = 1)
    (h : readRule bs = some r) : readRule (ruleBytes r) = some r := by
  have whole := h
  unfold readRule at h
  obtain ⟨origin, ho, h⟩ := Option.bind_eq_some_iff.1 h
  obtain ⟨dest, hd, h⟩ := Option.bind_eq_some_iff.1 h
  obtain ⟨code, hc, h⟩ := Option.bind_eq_some_iff.1 h
  obtain ⟨t0, h0, h⟩ := Option.bind_eq_some_iff.1 h
  obtain ⟨t1, h1, h⟩ := Option.bind_eq_some_iff.1 h
  obtain ⟨t2, h2, h⟩ := Option.bind_eq_some_iff.1 h
  obtain ⟨t3, h3, h⟩ := Option.bind_eq_some_iff.1 h
  obtain ⟨selector, hs, h⟩ := Option.bind_eq_some_iff.1 h
  obtain ⟨verdict, hv, h⟩ := Option.bind_eq_some_iff.1 h
  obtain ⟨limit, hl, h⟩ := Option.bind_eq_some_iff.1 h
  obtain ⟨notify, hn, entry⟩ := Option.bind_eq_some_iff.1 h
  obtain ⟨rfl, -⟩ := inRange_eq_some.1 hl
  obtain ⟨-, same⟩ := Option.ite_none_right_eq_some.1 entry
  obtain rfl : _ = r := Option.some.inj same
  have point : optWord (selector.map (·.1)) = slice bs 43 2 := by
    rw [optWord_of_read (selectorPoint_of_read hs), beBytes_fieldAt (by omega)]
  have front : yesNo true ++ optByte (origin.map portCode) ++ optByte dest ++ optWord code ++
      byte1 (byteAt bs 5) ++ byte1 (byteAt bs 6) ++ termBytes t0 ++ termBytes t1 ++ termBytes t2 ++
      termBytes t3 ++ beBytes 2 (BitVec.ofNat 16 (fieldAt bs 39 2)).toNat ++
      beBytes 2 (BitVec.ofNat 16 (fieldAt bs 41 2)).toNat ++ optWord (selector.map (·.1)) = slice bs 0 45 := by
    rw [yesNo_valid valid, originByte_of_read ho, optByte_of_read hd, optWord_of_read hc, point,
      termBytes_of_read h0 (by omega), termBytes_of_read h1 (by omega), termBytes_of_read h2 (by omega),
      termBytes_of_read h3 (by omega), beBytes_ofNat (by omega) rfl, beBytes_ofNat (by omega) rfl]
    simp (disch := omega) only [byte1_byteAt, beBytes_fieldAt, slice_append_slice, Nat.reduceAdd]
  have back : enumCode [FalseVerdict.refuse, .hold] verdict ++ beBytes 2 (fieldAt bs 47 2) ++ yesNo notify =
      bs.drop 46 := by
    rw [enumCode_of_read (by decide) hv, yesNo_of_read hn, ← slice_end (n := 4) length]
    simp (disch := omega) only [byte1_byteAt, beBytes_fieldAt, slice_append_slice, Nat.reduceAdd]
  simp only [ruleBytes]
  rw [front, List.append_assoc, List.append_assoc, ← List.append_assoc (enumCode _ _), back, ← whole]
  cases selector with
  | none =>
    have bit : optByte ((none : Option (Nat × Nat)).map (·.2)) = [0xFF] := rfl
    have same {k n : Nat} (apart : k + n ≤ 45 ∨ 46 ≤ k) :
        fieldAt (slice bs 0 45 ++ [0xFF] ++ bs.drop 46) k n = fieldAt bs k n :=
      fieldAt_patch (b := 46) rfl (by omega) apart
    rw [bit]
    refine readRule_congr (fun k n apart => same apart) ?_
    rw [hs]
    refine readSelector_of_none ?_
    rw [same (.inl (by omega))]
    exact selectorPoint_of_read hs
  | some s =>
    have bit : optByte ((some s).map (·.2)) = slice bs 45 1 := by
      rw [← byte1_byteAt (by omega), selectorBit_of_read hs]
      rfl
    rw [bit, take_slice_drop bs (a := 45) (n := 1) rfl]

/-! ## Axis records (R62) -/

theorem readComparator_congr {bs cs : List Byte} {off : Nat}
    (same : ∀ k n, off ≤ k → fieldAt cs k n = fieldAt bs k n) :
    readComparator cs off = readComparator bs off := by
  unfold readComparator byteAt
  rw [same off 1 (by omega), same (off + 1) 1 (by omega), same (off + 5) 1 (by omega),
    same (off + 6) 1 (by omega), same (off + 2) 3 (by omega)]

theorem readAxis_congr {bs cs : List Byte} {self : Nat}
    (same : ∀ k n, k + n ≤ 15 ∨ 20 ≤ k → fieldAt cs k n = fieldAt bs k n)
    (coupling : readCoupling cs 14 self = readCoupling bs 14 self) : readAxis self cs = readAxis self bs := by
  have comparator (off : Nat) (h : 20 ≤ off) : readComparator cs off = readComparator bs off :=
    readComparator_congr fun k n low => same k n (.inr (by omega))
  unfold readAxis byteAt
  rw [coupling, comparator 21 (by omega), comparator 28 (by omega), comparator 35 (by omega),
    comparator 42 (by omega), same 1 1 (by omega), same 2 3 (by omega), same 5 3 (by omega),
    same 8 2 (by omega), same 10 2 (by omega), same 12 1 (by omega), same 13 1 (by omega),
    same 20 1 (by omega)]

theorem readCoupling_of_none {bs : List Byte} {off : Nat} (self : Nat) (h : byteAt bs off = 255) :
    readCoupling bs off self = some none := if_pos h

/-- R62: an axis record written back reads as the record, byte for byte where it has a leader. -/
theorem readAxis_axisBytes {bs : List Byte} {self : Nat} {c : AxisCfg} (length : bs.length = 49)
    (valid : byteAt bs 0 = 1) (h : readAxis self bs = some c) : readAxis self (axisBytes c) = some c := by
  have whole := h
  unfold readAxis at h
  obtain ⟨zone, hz, h⟩ := Option.bind_eq_some_iff.1 h
  obtain ⟨vmax, hm, h⟩ := Option.bind_eq_some_iff.1 h
  obtain ⟨trip, ht, h⟩ := Option.bind_eq_some_iff.1 h
  obtain ⟨policy, hp, h⟩ := Option.bind_eq_some_iff.1 h
  obtain ⟨warning, hw, h⟩ := Option.bind_eq_some_iff.1 h
  obtain ⟨coupling, hk, h⟩ := Option.bind_eq_some_iff.1 h
  obtain ⟨scale, hs, h⟩ := Option.bind_eq_some_iff.1 h
  obtain ⟨c0, h0, h⟩ := Option.bind_eq_some_iff.1 h
  obtain ⟨c1, h1, h⟩ := Option.bind_eq_some_iff.1 h
  obtain ⟨c2, h2, h⟩ := Option.bind_eq_some_iff.1 h
  obtain ⟨c3, h3, entry⟩ := Option.bind_eq_some_iff.1 h
  obtain ⟨rfl, -⟩ := inRange_eq_some.1 hm
  obtain ⟨rfl, -⟩ := inRange_eq_some.1 ht
  obtain ⟨rfl, -⟩ := inRange_eq_some.1 hs
  obtain ⟨-, same⟩ := Option.ite_none_right_eq_some.1 entry
  obtain rfl : _ = c := Option.some.inj same
  have front : yesNo true ++ optByte zone ++ beSigned 3 (toSigned 3 (fieldAt bs 2 3)) ++
      beSigned 3 (toSigned 3 (fieldAt bs 5 3)) ++ beBytes 2 (fieldAt bs 8 2) ++ beBytes 2 (fieldAt bs 10 2) ++
      enumCode [HoldPolicy.keep, .flush] policy ++ optByte warning = slice bs 0 14 := by
    rw [yesNo_valid valid, optByte_of_read hz, enumCode_of_read (by decide) hp, optByte_of_read hw]
    simp (disch := omega) only [byte1_byteAt, beBytes_fieldAt, beSigned_toSigned, slice_append_slice,
      Nat.reduceAdd]
  have back : byte1 (byteAt bs 20) ++ comparatorBytes c0 ++ comparatorBytes c1 ++ comparatorBytes c2 ++
      comparatorBytes c3 = bs.drop 20 := by
    rw [comparatorBytes_of_read h0 (by omega), comparatorBytes_of_read h1 (by omega),
      comparatorBytes_of_read h2 (by omega), comparatorBytes_of_read h3 (by omega),
      ← slice_end (n := 29) length]
    simp (disch := omega) only [byte1_byteAt, slice_append_slice, Nat.reduceAdd]
  have bytes : axisBytes { zone := zone, low := toSigned 3 (fieldAt bs 2 3), high := toSigned 3 (fieldAt bs 5 3)
                           vmax := fieldAt bs 8 2, trip := fieldAt bs 10 2, policy := policy
                           warning := warning, coupling := coupling, scale := byteAt bs 20
                           comps := #v[c0, c1, c2, c3] } =
      slice bs 0 14 ++ couplingBytes coupling ++ bs.drop 20 := by
    rw [← front, ← back]
    simp only [axisBytes, List.append_assoc]
    rfl
  rw [bytes, ← whole]
  cases coupling with
  | none =>
    have marked : byteAt bs 14 = 255 := byteAt_of_noCoupling hk
    have absent : couplingBytes none = slice bs 14 1 ++ [0xFF, 0xFF, 0xFF, 0xFF, 0xFF] := by
      rw [← byte1_byteAt (by omega), marked]
      rfl
    rw [absent, ← List.append_assoc, slice_append_slice bs 1 rfl]
    have same {k n : Nat} (apart : k + n ≤ 15 ∨ 20 ≤ k) :
        fieldAt (slice bs 0 15 ++ [0xFF, 0xFF, 0xFF, 0xFF, 0xFF] ++ bs.drop 20) k n = fieldAt bs k n :=
      fieldAt_patch (b := 20) rfl (by omega) apart
    refine readAxis_congr (fun k n apart => same apart) ?_
    rw [hk]
    exact readCoupling_of_none self ((same (.inl (by omega))).trans marked)
  | some k =>
    rw [couplingBytes_of_read hk (by omega), take_slice_drop bs rfl]

/-! ## Programs (R135) -/

/-- What a slot says, step by step of Table 7-6. -/
def StepHere (bs : List Byte) (off : Nat) : ProgStep → Prop
  | .close r => byteAt bs off = 1 ∧ inRange 1 15 (byteAt bs (off + 1)) = some r
  | .await r n => byteAt bs off = 2 ∧ inRange 1 15 (byteAt bs (off + 1)) = some r ∧
      inRange 1 600 (fieldAt bs (off + 2) 2) = some n
  | .pause10 n => byteAt bs off = 3 ∧ inRange 1 255 (byteAt bs (off + 1)) = some n
  | .pause100 n => byteAt bs off = 4 ∧ inRange 1 600 (fieldAt bs (off + 1) 2) = some n
  | .call t => byteAt bs off = 5 ∧ inRange 0 31 (byteAt bs (off + 1)) = some t
  | .order st c d w => byteAt bs off = 6 ∧ inRange 1 63 (byteAt bs (off + 1)) = some st ∧
      byteAt bs (off + 2) = c ∧ byteAt bs (off + 3) = d ∧ BitVec.ofNat 16 (fieldAt bs (off + 4) 2) = w
  | .halt => byteAt bs off = 7
  | .branch t target => byteAt bs off = 8 ∧ readTerm bs (off + 1) = some t ∧
      inRange 1 16 (byteAt bs (off + 9)) = some target
  | .finish => byteAt bs off = 9

theorem stepHere_of_read {bs : List Byte} {off : Nat} {p : ProgStep} (h : readStep bs off = some p) :
    StepHere bs off p := by
  unfold readStep at h
  dsimp only at h
  split at h
  case h_1 code =>
    obtain ⟨r, hr, rfl⟩ := Option.map_eq_some_iff.1 h
    exact ⟨code, hr⟩
  case h_2 code =>
    simp only [Option.bind_eq_bind, Option.bind_eq_some_iff, Option.pure_def, Option.some.injEq] at h
    obtain ⟨r, hr, n, hn, rfl⟩ := h
    exact ⟨code, hr, hn⟩
  case h_3 code =>
    obtain ⟨n, hn, rfl⟩ := Option.map_eq_some_iff.1 h
    exact ⟨code, hn⟩
  case h_4 code =>
    obtain ⟨n, hn, rfl⟩ := Option.map_eq_some_iff.1 h
    exact ⟨code, hn⟩
  case h_5 code =>
    obtain ⟨n, hn, rfl⟩ := Option.map_eq_some_iff.1 h
    exact ⟨code, hn⟩
  case h_6 code =>
    simp only [Option.bind_eq_bind, Option.bind_eq_some_iff, Option.pure_def, Option.some.injEq] at h
    obtain ⟨st, hs, rfl⟩ := h
    exact ⟨code, hs, rfl, rfl, rfl⟩
  case h_7 code =>
    obtain rfl := Option.some.inj h
    exact code
  case h_8 code =>
    simp only [Option.bind_eq_bind, Option.bind_eq_some_iff, Option.pure_def, Option.some.injEq] at h
    obtain ⟨t, ht, n, hn, rfl⟩ := h
    exact ⟨code, ht, hn⟩
  case h_9 code =>
    obtain rfl := Option.some.inj h
    exact code
  case h_10 => cases h

theorem readStep_of_here {bs : List Byte} {off : Nat} {p : ProgStep} (h : StepHere bs off p) :
    readStep bs off = some p := by
  cases p with
  | close r => obtain ⟨code, hr⟩ := h; simp [readStep, code, hr]
  | await r n => obtain ⟨code, hr, hn⟩ := h; simp [readStep, code, hr, hn]
  | pause10 n => obtain ⟨code, hn⟩ := h; simp [readStep, code, hn]
  | pause100 n => obtain ⟨code, hn⟩ := h; simp [readStep, code, hn]
  | call t => obtain ⟨code, ht⟩ := h; simp [readStep, code, ht]
  | order st c d w => obtain ⟨code, hs, hc, hd, hw⟩ := h; simp [readStep, code, hs, hc, hd, hw]
  | halt => have code : byteAt bs off = 7 := h; simp [readStep, code]
  | branch t target => obtain ⟨code, ht, hn⟩ := h; simp [readStep, code, ht, hn]
  | finish => have code : byteAt bs off = 9 := h; simp [readStep, code]

/-- The bytes of its slot that a step reads. -/
def stepSize : ProgStep → Nat
  | .close _ => 2
  | .await _ _ => 4
  | .pause10 _ => 2
  | .pause100 _ => 3
  | .call _ => 2
  | .order .. => 6
  | .halt => 1
  | .branch _ _ => 10
  | .finish => 1

theorem stepSize_le (p : ProgStep) : stepSize p ≤ 10 := by cases p <;> simp [stepSize]

/-- A step rests on the bytes it reads. -/
theorem StepHere.congr {bs cs : List Byte} {off here : Nat} {p : ProgStep} (h : StepHere bs off p)
    (same : ∀ k n, k + n ≤ stepSize p → fieldAt cs (here + k) n = fieldAt bs (off + k) n) : StepHere cs here p := by
  have code : byteAt cs here = byteAt bs off := same 0 1 (by cases p <;> simp [stepSize])
  cases p with
  | close r => exact ⟨code.trans h.1, (congrArg _ (same 1 1 (by simp [stepSize]))).trans h.2⟩
  | await r n =>
    obtain ⟨hc, hr, hn⟩ := h
    exact ⟨code.trans hc, (congrArg _ (same 1 1 (by simp [stepSize]))).trans hr,
      (congrArg _ (same 2 2 (by simp [stepSize]))).trans hn⟩
  | pause10 n => exact ⟨code.trans h.1, (congrArg _ (same 1 1 (by simp [stepSize]))).trans h.2⟩
  | pause100 n => exact ⟨code.trans h.1, (congrArg _ (same 1 2 (by simp [stepSize]))).trans h.2⟩
  | call t => exact ⟨code.trans h.1, (congrArg _ (same 1 1 (by simp [stepSize]))).trans h.2⟩
  | order st c d w =>
    obtain ⟨hc, hs, hd, he, hw⟩ := h
    exact ⟨code.trans hc, (congrArg _ (same 1 1 (by simp [stepSize]))).trans hs,
      (same 2 1 (by simp [stepSize])).trans hd, (same 3 1 (by simp [stepSize])).trans he,
      (congrArg _ (same 4 2 (by simp [stepSize]))).trans hw⟩
  | halt => exact code.trans h
  | branch t target =>
    obtain ⟨hc, ht, hn⟩ := h
    have term : readTerm cs (here + 1) = readTerm bs (off + 1) := readTerm_congr fun k n inside => by
      rw [Nat.add_assoc, Nat.add_assoc]
      exact same (1 + k) n (by simp only [stepSize]; omega)
    exact ⟨code.trans hc, term.trans ht, (congrArg _ (same 9 1 (by simp [stepSize]))).trans hn⟩
  | finish => exact code.trans h

theorem length_padTo {n : Nat} {bs : List Byte} (h : bs.length ≤ n) : (padTo n bs).length = n := by
  rw [padTo, List.length_append, List.length_replicate]
  omega

/-- A step in its slot is the bytes it was read from, filled with 0. -/
theorem stepBytes_of_here {bs : List Byte} {off : Nat} {p : ProgStep} (h : StepHere bs off p)
    (room : off + 10 ≤ bs.length) : stepBytes p = padTo 10 (slice bs off (stepSize p)) := by
  have head {n : Nat} (code : byteAt bs off = n) : byte1 n = slice bs off 1 := by
    rw [← code, byte1_byteAt (by omega)]
  unfold stepBytes
  congr 1
  cases p with
  | close r =>
    obtain ⟨code, hr⟩ := h
    obtain ⟨rfl, -⟩ := inRange_eq_some.1 hr
    dsimp only
    rw [head code]
    simp (disch := omega) only [stepSize, byte1_byteAt, slice_append_slice, Nat.reduceAdd]
  | await r n =>
    obtain ⟨code, hr, hn⟩ := h
    obtain ⟨rfl, -⟩ := inRange_eq_some.1 hr
    obtain ⟨rfl, -⟩ := inRange_eq_some.1 hn
    dsimp only
    rw [head code]
    simp (disch := omega) only [stepSize, byte1_byteAt, beBytes_fieldAt, slice_append_slice, Nat.reduceAdd]
  | pause10 n =>
    obtain ⟨code, hn⟩ := h
    obtain ⟨rfl, -⟩ := inRange_eq_some.1 hn
    dsimp only
    rw [head code]
    simp (disch := omega) only [stepSize, byte1_byteAt, slice_append_slice, Nat.reduceAdd]
  | pause100 n =>
    obtain ⟨code, hn⟩ := h
    obtain ⟨rfl, -⟩ := inRange_eq_some.1 hn
    dsimp only
    rw [head code]
    simp (disch := omega) only [stepSize, beBytes_fieldAt, slice_append_slice, Nat.reduceAdd]
  | call n =>
    obtain ⟨code, hn⟩ := h
    obtain ⟨rfl, -⟩ := inRange_eq_some.1 hn
    dsimp only
    rw [head code]
    simp (disch := omega) only [stepSize, byte1_byteAt, slice_append_slice, Nat.reduceAdd]
  | order st c d w =>
    obtain ⟨code, hs, rfl, rfl, rfl⟩ := h
    obtain ⟨rfl, -⟩ := inRange_eq_some.1 hs
    dsimp only
    rw [head code, beBytes_ofNat (by omega) rfl]
    simp (disch := omega) only [stepSize, byte1_byteAt, slice_append_slice, Nat.reduceAdd]
  | branch t n =>
    obtain ⟨code, ht, hn⟩ := h
    obtain ⟨rfl, -⟩ := inRange_eq_some.1 hn
    dsimp only
    rw [head code, termBytes_of_read ht (by omega)]
    simp (disch := omega) only [stepSize, byte1_byteAt, slice_append_slice, Nat.reduceAdd]
  | halt => exact head h
  | finish => exact head h

theorem length_stepBytes {bs : List Byte} {off : Nat} {p : ProgStep} (h : StepHere bs off p)
    (room : off + 10 ≤ bs.length) : (stepBytes p).length = 10 := by
  have small := stepSize_le p
  rw [stepBytes_of_here h room, length_padTo]
  rw [slice_length (by omega)]
  exact small

/-- Reading in the middle of a list. -/
theorem fieldAt_middle {front mid rest : List Byte} {k n : Nat} (inside : k + n ≤ mid.length) :
    fieldAt (front ++ (mid ++ rest)) (front.length + k) n = fieldAt mid k n := by
  refine congrArg beNat ?_
  rw [← List.drop_drop, List.drop_left, List.drop_append_of_le_length (by omega),
    List.take_append_of_le_length (by rw [List.length_drop]; omega)]

/-- A step reads the same from its slot, wherever the slot stands. -/
theorem readStep_stepBytes {bs front rest : List Byte} {off : Nat} {p : ProgStep}
    (h : readStep bs off = some p) (room : off + 10 ≤ bs.length) :
    readStep (front ++ (stepBytes p ++ rest)) front.length = some p := by
  have here := stepHere_of_read h
  have small := stepSize_le p
  have size : (slice bs off (stepSize p)).length = stepSize p := slice_length (by omega)
  refine readStep_of_here (here.congr fun k n inside => ?_)
  rw [fieldAt_middle (by rw [length_stepBytes here room]; omega), stepBytes_of_here here room, padTo]
  have filled := fieldAt_middle (front := []) (mid := slice bs off (stepSize p))
    (rest := List.replicate (10 - (slice bs off (stepSize p)).length) 0) (k := k) (n := n) (by omega)
  rw [List.nil_append, List.length_nil, Nat.zero_add] at filled
  rw [filled]
  refine congrArg beNat ?_
  rw [slice, List.drop_take, List.take_take, List.drop_drop, Nat.min_eq_left (by omega)]

theorem length_readSteps {bs : List Byte} {n : Nat} : ∀ {k : Nat} {p : List ProgStep},
    readSteps bs n k = some p → p.length = n := by
  induction n with
  | zero => intro k p h; cases Option.some.inj h; rfl
  | succ n ih =>
    intro k p h
    simp only [readSteps, Option.bind_eq_bind, Option.bind_eq_some_iff, Option.pure_def, Option.some.injEq] at h
    obtain ⟨step, -, rest, hr, rfl⟩ := h
    rw [List.length_cons, ih hr]

theorem readSteps_flatMap {bs : List Byte} {n : Nat} : ∀ {k : Nat} {p : List ProgStep} {front : List Byte}
    (rest : List Byte), readSteps bs n k = some p → 2 + 10 * (k + n) ≤ bs.length → front.length = 2 + 10 * k →
    readSteps (front ++ (p.flatMap stepBytes ++ rest)) n k = some p := by
  induction n with
  | zero => intro k p front rest h _ _; exact h
  | succ n ih =>
    intro k p front rest h room length
    simp only [readSteps, Option.bind_eq_bind, Option.bind_eq_some_iff, Option.pure_def, Option.some.injEq] at h
    obtain ⟨step, hs, more, hr, rfl⟩ := h
    have slot : 2 + 10 * k + 10 ≤ bs.length := by omega
    have first := readStep_stepBytes (front := front) (rest := more.flatMap stepBytes ++ rest) hs slot
    have others := ih (front := front ++ stepBytes step) rest hr (by omega) (by
      rw [List.length_append, length_stepBytes (stepHere_of_read hs) slot]
      omega)
    rw [length] at first
    rw [List.append_assoc] at others
    rw [readSteps, List.flatMap_cons, List.append_assoc, first, others]
    rfl

/-- R135: a program written back reads as the program. -/
theorem readProgram_programBytes {bs : List Byte} {p : List ProgStep} (length : bs.length = 162)
    (h : readProgram bs = some p) : readProgram (programBytes p) = some p := by
  simp only [readProgram, Option.bind_eq_bind, Option.bind_eq_some_iff, inRange_eq_some] at h
  obtain ⟨count, ⟨rfl, low, high⟩, steps⟩ := h
  have size := length_readSteps steps
  have head : byteAt (programBytes p) 1 = p.length := by
    have one : byteAt (programBytes p) 1 = (BitVec.ofNat 8 p.length).toNat := by
      simp [programBytes, padTo, byteAt, fieldAt, yesNo, byte1, beNat]
    rw [one, BitVec.toNat_ofNat, Nat.mod_eq_of_lt (by omega)]
  have back := readSteps_flatMap (front := yesNo true ++ byte1 p.length)
    (List.replicate (162 - (yesNo true ++ byte1 p.length ++ p.flatMap stepBytes).length) 0) steps (by omega) rfl
  rw [readProgram, head, inRange, if_pos (by omega), size]
  rw [← List.append_assoc] at back
  exact back

end Sys2Proof.Machine

/-! # Proofs: what a write or a clear of a table entry leaves (R19, R26, R46, R166, R179) -/

namespace Sys2Proof.Machine

open Sys2Proof

/-! ## One entry at a time -/

section
variable (n : Nat) (s : State)

/-- R19. -/
theorem getStation_putStationEntry (e : Option StationEntry) (k : Nat) :
    getStation (putStationEntry n e s) k = if k = n then
      { entry := e, state := .unseen, count := 0, lastSeq := none, silenceFlag := (getStation s n).silenceFlag }
      else getStation s k := by
  have put := getStation_putStation n k { entry := e, silenceFlag := (getStation s n).silenceFlag } s
  have told (t : State) : getStation (tell [.stationSilent] (.station n) t) k = getStation t k := by
    have kept : (tell [.stationSilent] (.station n) t).stations = t.stations :=
      congrArg Frozen.stations (keepsAll_tell _ _ t).frozen
    rw [getStation, getStation, kept]
  unfold putStationEntry
  dsimp only
  split_ifs
  all_goals simp_all

end

/-- A table after the entry of a number was written, or cleared. -/
def Tab.put {α : Type} (t : Tab α) (n : Nat) : Option α → Tab α
  | some v => Tab.set t n v
  | none => Tab.erase t n

theorem Tab.get?_put_same {α : Type} (t : Tab α) (n : Nat) (e : Option α) : Tab.get? (Tab.put t n e) n = e := by
  cases e with
  | some v => exact Tab.get?_set_same t n v
  | none => rw [Tab.put, Tab.get?_erase, if_pos rfl]

section
variable (n : Nat) (s : State)

/-- R26: the entry is entered; its old target is cleared unless it is FORCED. -/
theorem putMapEntry_eq (e : Option MapEntry) : putMapEntry n e s =
    match Tab.get? s.pointMap n with
    | none => { s with pointMap := Tab.put s.pointMap n e }
    | some old =>
      if (getPoint s old.point).quality = .forced then { s with pointMap := Tab.put s.pointMap n e }
      else setImage (putPoint s.points old.point {}) [old.point] { s with pointMap := Tab.put s.pointMap n e } := by
  cases e <;> rfl

theorem pointMap_putMapEntry (e : Option MapEntry) : Tab.get? (putMapEntry n e s).pointMap n = e := by
  have entered : (putMapEntry n e s).pointMap = Tab.put s.pointMap n e := by
    rw [putMapEntry_eq]
    split
    · rfl
    next old _ =>
      split
      · rfl
      · obtain ⟨es, image⟩ := setImage_cases (putPoint s.points old.point {}) [old.point]
          { s with pointMap := Tab.put s.pointMap n e }
        rw [image]
  rw [entered, Tab.get?_put_same]

theorem putRule_eq (e : Option Rule) : putRule n e s =
    ruleChanged n { s with rules := Tab.put s.rules n e } := by
  cases e <;> rfl

theorem rules_putRule (e : Option Rule) : Tab.get? (putRule n e s).rules n = e := by
  have kept := congrArg Frozen.rules (keepsAll_ruleChanged n { s with rules := Tab.put s.rules n e }).frozen
  have entered : (putRule n e s).rules = Tab.put s.rules n e := (putRule_eq n s e).symm ▸ kept
  rw [entered, Tab.get?_put_same]

theorem audioZones_putAudioZone (e : Option AudioZone) : Tab.get? (putAudioZone n e s).audioZones n = e := by
  have put : putAudioZone n e s = refreshRequests { s with audioZones := Tab.put s.audioZones n e } := by
    cases e <;> rfl
  have kept := congrArg Frozen.audioZones
    (keepsAll_refreshRequests { s with audioZones := Tab.put s.audioZones n e }).frozen
  have entered : (putAudioZone n e s).audioZones = Tab.put s.audioZones n e := put ▸ kept
  rw [entered, Tab.get?_put_same]

theorem cfg_of_keeps {s t : State} (h : Keeps s t) (a : AxisId) : (getAxis t a).cfg = (getAxis s a).cfg :=
  congrArg AxisCounters.cfg (h.counters a)

theorem cfg_writeAxis (a : AxisId) (c : AxisCfg) : (getAxis (writeAxis a c s) a).cfg = some c := by
  unfold writeAxis
  dsimp only
  rw [cfg_of_keeps (keepsAll_publishAxis a [0, 4] _).toKeeps a, getAxis_setAxis_same]
  split <;> rfl

theorem cfg_clearAxis (a : AxisId) : (getAxis (clearAxis a s) a).cfg = none := by
  unfold clearAxis
  extract_lets x t
  have cleared : (getAxis t a).cfg = none := by
    rw [cfg_of_keeps (keepsAll_publishAxis a [0, 1, 4, 6] _).toKeeps a, getAxis_setAxis_same]
  split
  · rw [cfg_of_keeps (keepsAll_tell _ _ _).toKeeps a, cleared]
  · exact cleared

theorem cfg_writeDoor (d : Nat) (c : DoorCfg) :
    (Tab.get? (writeDoor d c s).doors d).map (·.cfg) = some c := by
  unfold writeDoor
  dsimp only
  rw [(keepsAll_tell _ _ _).toKeeps.doors, (keepsAll_writeDoorPoint d _ _).toKeeps.doors]
  exact congrArg (Option.map _) (Tab.get?_set_same s.doors d _)

theorem cfg_clearDoor (d : Nat) : Tab.get? (clearDoor d s).doors d = none := by
  have gone : (Tab.get? (clearDoor d s).doors d).map (·.cfg) = none := by
    unfold clearDoor
    rw [(keepsAll_tell _ _ _).toKeeps.doors,
      (keepsAll_clearPoints _ _ (by simp [doorPoint_above])).toKeeps.doors]
    exact congrArg (Option.map _) ((Tab.get?_erase s.doors d d).trans (if_pos rfl))
  exact Option.map_eq_none_iff.1 gone

theorem cfg_writeZone (z : Nat) (c : ZoneCfg) :
    (Tab.get? (writeZone z c s).zones z).map (·.cfg) = some c := by
  unfold writeZone
  rw [(keepsAll_evalTrigger z _).toKeeps.zones, (keepsAll_publishZones _).toKeeps.zones]
  exact congrArg (Option.map _) (Tab.get?_set_same s.zones z _)

theorem cfg_clearZone (z : Nat) : Tab.get? (clearZone z s).zones z = none := by
  unfold clearZone clearPoints
  obtain ⟨es, image⟩ := setImage_cases (([Config.zonePoint z, Config.gatePoint z]).foldl
    (fun t n => putPoint t n {}) s.points) [Config.zonePoint z, Config.gatePoint z]
    { s with zones := Tab.erase s.zones z }
  rw [image]
  exact (Tab.get?_erase s.zones z z).trans (if_pos rfl)

theorem responses_putResponse {n : Nat} (h : n ≤ 7) (r : Response) :
    (putResponse n r s).responses[n]? = some r := by
  have place : n % 8 = n := Nat.mod_eq_of_lt (by omega)
  unfold putResponse
  simp [place]

end

/-! ## The record of an entry as it is read (R169) -/

section
variable {s : State} {i : Nat}

theorem readBack_of_bytes {t : Nat} {bs : List Byte} (h : entryBytes s t i = some bs) : readBack s t i = bs := by
  rw [readBack, h, Option.getD_some]

theorem readBack_of_absent {t : Nat} (h : entryBytes s t i = none) :
    readBack s t i = List.replicate (recordLength t) 0 := by
  rw [readBack, h, Option.getD_none]

end

theorem indexOk_le {t i : Nat} (h : indexOk t i = true) : t ≤ 10 := by
  unfold indexOk at h
  split at h
  case h_12 => cases h
  all_goals omega

/-- R166: a cleared entry of the first nine tables is absent. -/
theorem entryBytes_clear {t i : Nat} {s u : State} (h : clearTable t i s = (u, .ok)) (low : t ≤ 8) :
    entryBytes u t i = none := by
  interval_cases t
  · obtain rfl : putStationEntry i none s = u := congrArg Prod.fst h
    rw [entryBytes, getStation_putStationEntry, if_pos rfl]
    rfl
  · obtain rfl : putMapEntry i none s = u := congrArg Prod.fst h
    rw [entryBytes, pointMap_putMapEntry]
    rfl
  · obtain rfl : putRule i none s = u := congrArg Prod.fst h
    rw [entryBytes, rules_putRule]
    rfl
  · obtain rfl : clearAxis (axisId i) s = u := congrArg Prod.fst h
    rw [entryBytes, cfg_clearAxis]
    rfl
  · obtain rfl : clearDoor i s = u := congrArg Prod.fst h
    rw [entryBytes, cfg_clearDoor]
    rfl
  · obtain rfl : clearZone i s = u := congrArg Prod.fst h
    rw [entryBytes, cfg_clearZone]
    rfl
  · obtain rfl : { s with programs := Tab.erase s.programs i } = u := congrArg Prod.fst h
    rw [entryBytes, Tab.get?_erase, if_pos rfl]
    rfl
  · unfold clearTable at h
    split_ifs at h with used
    · cases congrArg Prod.snd h
    · obtain rfl : { s with templates := Tab.erase s.templates i } = u := congrArg Prod.fst h
      rw [entryBytes, Tab.get?_erase, if_pos rfl]
      rfl
  · obtain rfl : putAudioZone i none s = u := congrArg Prod.fst h
    rw [entryBytes, audioZones_putAudioZone]
    rfl

/-! ## Writing a record (R166) -/

section
variable {t i : Nat} {bs : List Byte} {s u : State}

theorem byteAt_of_head {b : Byte} (h : bs.head? = some b) : byteAt bs 0 = b.toNat := by
  cases bs with
  | nil => cases h
  | cons c bs =>
    obtain rfl : c = b := Option.some.inj h
    simp [byteAt, fieldAt, beNat]

theorem writeTable_of_valid (low : 1 ≤ t) (high : t ≤ 7) (valid : byteAt bs 0 = 1) :
    writeTable t i bs s = writeValid t i bs s := by
  have yes : readYesNo (byteAt bs 0) = some true := by rw [valid]; rfl
  interval_cases t
  all_goals simp only [writeTable, yes]

theorem writeTable_of_invalid (low : 1 ≤ t) (high : t ≤ 7) (invalid : byteAt bs 0 = 0) :
    writeTable t i bs s = clearTable t i s := by
  have no : readYesNo (byteAt bs 0) = some false := by rw [invalid]; rfl
  interval_cases t
  all_goals simp only [writeTable, no]

/-- A written map entry reads back byte for byte. -/
theorem entryBytes_writeMap (length : bs.length = 8) (valid : byteAt bs 0 = 1)
    (h : writeValid 1 i bs s = (u, .ok)) : entryBytes u 1 i = some bs := by
  simp only [writeValid] at h
  split at h
  next => cases congrArg Prod.snd h
  next m hm =>
    split_ifs at h with clash
    · cases congrArg Prod.snd h
    · obtain rfl : putMapEntry i (some m) s = u := congrArg Prod.fst h
      rw [entryBytes, pointMap_putMapEntry]
      exact congrArg some (mapBytes_of_read valid length hm)

theorem entryBytes_writeRule (h : writeValid 2 i bs s = (u, .ok)) :
    ∃ r, readRule bs = some r ∧ entryBytes u 2 i = some (ruleBytes r) := by
  simp only [writeValid] at h
  split at h
  next => cases congrArg Prod.snd h
  next r hr =>
    split_ifs at h with bad
    · cases congrArg Prod.snd h
    · obtain rfl : putRule i (some r) s = u := congrArg Prod.fst h
      refine ⟨r, hr, ?_⟩
      rw [entryBytes, rules_putRule]
      rfl

theorem entryBytes_writeAxis (h : writeValid 3 i bs s = (u, .ok)) :
    ∃ c, readAxis i bs = some c ∧ entryBytes u 3 i = some (axisBytes c) := by
  simp only [writeValid] at h
  split at h
  next => cases congrArg Prod.snd h
  next c hc =>
    obtain rfl : writeAxis (axisId i) c s = u := congrArg Prod.fst h
    refine ⟨c, hc, ?_⟩
    rw [entryBytes, cfg_writeAxis]
    rfl

theorem entryBytes_writeDoor (length : bs.length = 12) (valid : byteAt bs 0 = 1)
    (h : writeValid 4 i bs s = (u, .ok)) : entryBytes u 4 i = some bs := by
  simp only [writeValid] at h
  split at h
  next => cases congrArg Prod.snd h
  next c hc =>
    split_ifs at h with bad
    · cases congrArg Prod.snd h
    · obtain rfl : writeDoor i c s = u := congrArg Prod.fst h
      have cfg := congrArg (Option.map doorBytes) (cfg_writeDoor s i c)
      rw [Option.map_map] at cfg
      exact cfg.trans (congrArg some (doorBytes_of_read valid length hc))

theorem entryBytes_writeZone (length : bs.length = 17) (valid : byteAt bs 0 = 1)
    (h : writeValid 5 i bs s = (u, .ok)) : entryBytes u 5 i = some bs := by
  simp only [writeValid] at h
  split at h
  next => cases congrArg Prod.snd h
  next c hc =>
    split_ifs at h with bad
    · cases congrArg Prod.snd h
    · obtain rfl : writeZone i c s = u := congrArg Prod.fst h
      have cfg := congrArg (Option.map zoneBytes) (cfg_writeZone s i c)
      rw [Option.map_map] at cfg
      exact cfg.trans (congrArg some (zoneBytes_of_read valid length hc))

theorem entryBytes_writeProgram (h : writeValid 6 i bs s = (u, .ok)) :
    ∃ p, readProgram bs = some p ∧ entryBytes u 6 i = some (programBytes p) := by
  simp only [writeValid] at h
  split at h
  next => cases congrArg Prod.snd h
  next p hp =>
    split_ifs at h with bad
    · cases congrArg Prod.snd h
    · obtain rfl : { s with programs := Tab.set s.programs i p } = u := congrArg Prod.fst h
      refine ⟨p, hp, ?_⟩
      rw [entryBytes, Tab.get?_set_same]
      rfl

theorem entryBytes_writeTemplate (length : bs.length = 11) (valid : byteAt bs 0 = 1)
    (h : writeValid 7 i bs s = (u, .ok)) : entryBytes u 7 i = some bs := by
  simp only [writeValid] at h
  split at h
  next => cases congrArg Prod.snd h
  next x hx =>
    split_ifs at h with used
    · cases congrArg Prod.snd h
    · obtain rfl : { s with templates := Tab.set s.templates i x } = u := congrArg Prod.fst h
      rw [entryBytes, Tab.get?_set_same]
      exact congrArg some (templateBytes_of_read valid length hx)

/-- A station record, valid or not. -/
theorem entryBytes_writeStation (h : writeTable 0 i bs s = (u, .ok)) :
    ∃ e, readStation bs = some e ∧ entryBytes u 0 i = e.map stationBytes := by
  simp only [writeTable] at h
  split at h
  next => cases congrArg Prod.snd h
  next e he =>
    obtain rfl : putStationEntry i e s = u := congrArg Prod.fst h
    refine ⟨e, he, ?_⟩
    rw [entryBytes, getStation_putStationEntry, if_pos rfl]

/-- An audio zone record, valid or not. -/
theorem entryBytes_writeAudioZone (h : writeTable 8 i bs s = (u, .ok)) :
    ∃ e, readAudioZone bs = some e ∧ entryBytes u 8 i = e.map audioZoneBytes := by
  simp only [writeTable] at h
  split at h
  next => cases congrArg Prod.snd h
  next e he =>
    obtain rfl : putAudioZone i e s = u := congrArg Prod.fst h
    refine ⟨e, he, ?_⟩
    rw [entryBytes, audioZones_putAudioZone]

theorem entryBytes_writeResponse (index : i ≤ 7) (length : bs.length = 1)
    (h : writeTable 9 i bs s = (u, .ok)) : entryBytes u 9 i = some bs := by
  simp only [writeTable] at h
  split at h
  next => cases congrArg Prod.snd h
  next r hr =>
    obtain rfl : putResponse i r s = u := congrArg Prod.fst h
    rw [entryBytes, responses_putResponse s index]
    exact congrArg some (responseBytes_of_read length hr)

theorem entryBytes_writeSettings (length : bs.length = 6)
    (h : writeTable 10 i bs s = (u, .ok)) : entryBytes u 10 i = some bs := by
  simp only [writeTable] at h
  split at h
  next => cases congrArg Prod.snd h
  next x hx =>
    obtain rfl : { s with settings := x } = u := congrArg Prod.fst h
    exact congrArg some (settingsBytes_of_read length hx)

theorem valid_of_readStation {o : Option StationEntry} (h : readStation bs = some o) :
    readYesNo (byteAt bs 0) = some o.isSome := by
  simp only [readStation, Option.bind_eq_bind, Option.bind_eq_some_iff, Option.pure_def, Option.some.injEq] at h
  obtain ⟨valid, hv, side, -, limit, -, rfl⟩ := h
  rw [hv]
  cases valid <;> rfl

theorem valid_of_readAudioZone {o : Option AudioZone} (h : readAudioZone bs = some o) :
    readYesNo (byteAt bs 0) = some o.isSome := by
  simp only [readAudioZone, Option.bind_eq_bind, Option.bind_eq_some_iff, Option.pure_def, Option.some.injEq] at h
  obtain ⟨valid, hv, gain, -, warnings, -, rfl⟩ := h
  rw [hv]
  cases valid <;> rfl

end

end Sys2Proof.Machine

/-! # Proofs: the request at the head completes (R165 to R169) -/

namespace Sys2Proof.Machine

open Sys2Proof

/-! ## Completions (R165) -/

section
variable {r : Request} {rest : List Request} {s u : State} {x : ReplyResult} (head : s.manage = r :: rest)
include head

theorem exec_writeEntry {t i part : Nat} {bs : List Byte} (body : r.body = .writeEntry t i part bs)
    (effect : writePart t i part bs r.more s = (u, x)) : exec .writeEntry s = .next (completed r x [] u) := by
  have run : exec .writeEntry s = execWriteEntry s := rfl
  rw [run, execWriteEntry, head]
  simp only [body, completeHead, effect]
  rfl

theorem exec_clearEntry {t i : Nat} (body : r.body = .clearEntry t i)
    (effect : clearRecord t i s = (u, x)) : exec .clearEntry s = .next (completed r x [] u) := by
  have run : exec .clearEntry s = execClearEntry s := rfl
  rw [run, execClearEntry, head]
  simp only [body, completeHead, effect]
  rfl

theorem exec_clearTravel {n : Nat} (body : r.body = .clearTravel n) (effect : clearTravel n s = (u, x)) :
    exec .clearTravel s = .next (completed r x [] u) := by
  have run : exec .clearTravel s = execClearTravel s := rfl
  rw [run, execClearTravel, head]
  simp only [body, completeHead, effect]
  rfl

/-- R165: a fenced read is answered from the state as it stands. -/
theorem completeRead_eq {wanted : ReqBody → Bool} (body : wanted r.body = true) :
    completeRead wanted s = completed r (serve r.body s).1 (serve r.body s).2 s := by
  rw [completeRead, head]
  dsimp only
  rw [if_pos body]
  rfl

end

/-! ## Parts of a record (R166, R167) -/

section
variable {t i part : Nat} {bs : List Byte} {more : Bool} {s u : State} {x : ReplyResult}

theorem writeRecord_of_written (index : indexOk t i = true) (mode : writable t s.mode = true)
    (length : bs.length = recordLength t) (written : writeTable t i bs s = (u, x)) :
    writeRecord t i bs s = (u, x) := by
  rw [writeRecord, if_neg (by simp [index]), if_neg (by simp [mode]), if_neg (not_not.2 length), written]

theorem writeRecord_of_index (index : indexOk t i = false) : writeRecord t i bs s = (s, .range) := if_pos index

theorem writeRecord_of_mode (index : indexOk t i = true) (mode : writable t s.mode = false) :
    writeRecord t i bs s = (s, .mode) := by
  rw [writeRecord, if_neg (by simp [index]), if_pos mode]

theorem writeRecord_of_length (index : indexOk t i = true) (mode : writable t s.mode = true)
    (length : bs.length ≠ recordLength t) : writeRecord t i bs s = (s, .range) := by
  rw [writeRecord, if_neg (by simp [index]), if_neg (by simp [mode]), if_pos length]

theorem writePart_whole (last : more = false) : writePart t i 0 bs more s = writeRecord t i bs s := by
  rw [writePart, if_pos rfl, if_neg (by simp [last])]

theorem writePart_first (first : more = true) (index : indexOk t i = true) : writePart t i 0 bs more s =
    ({ s with staging := some { table := t, index := i, nextPart := 1, bytes := bs } }, .ok) := by
  rw [writePart, if_pos rfl, if_pos first, if_pos index]

theorem stagingMatches_eq {g : Staging} (table : g.table = t) (index : g.index = i) (next : g.nextPart = part) :
    stagingMatches (some g) t i part = some g := if_pos ⟨table, index, next⟩

theorem stagingMatches_none {o : Option Staging}
    (h : ∀ g, o = some g → g.table ≠ t ∨ g.index ≠ i ∨ g.nextPart ≠ part) : stagingMatches o t i part = none := by
  cases o with
  | none => rfl
  | some g => exact if_neg fun ⟨table, index, next⟩ =>
      (h g rfl).elim (· table) (Or.elim · (· index) (· next))

theorem writePart_unmatched (later : part ≠ 0) (h : stagingMatches s.staging t i part = none) :
    writePart t i part bs more s = ({ s with staging := none }, .invalid) := by
  rw [writePart, if_neg later, h]

section
variable {g : Staging} (later : part ≠ 0) (h : stagingMatches s.staging t i part = some g)
include later h

theorem writePart_last (last : more = false) :
    writePart t i part bs more s = writeRecord t i (g.bytes ++ bs) { s with staging := none } := by
  rw [writePart, if_neg later, h]
  exact if_neg (by simp [last])

theorem writePart_appended (continues : more = true) (fits : (g.bytes ++ bs).length ≤ recordLength t) :
    writePart t i part bs more s =
      ({ s with staging := some { g with nextPart := part + 1, bytes := g.bytes ++ bs } }, .ok) := by
  rw [writePart, if_neg later, h]
  exact (if_pos continues).trans (if_neg (Nat.not_lt.2 fits))

theorem writePart_tooLong (continues : more = true) (long : recordLength t < (g.bytes ++ bs).length) :
    writePart t i part bs more s = ({ s with staging := none }, .range) := by
  rw [writePart, if_neg later, h]
  exact (if_pos continues).trans (if_pos long)

end

theorem clearRecord_of_cleared (index : indexOk t i = true) (mode : writable t s.mode = true)
    (cleared : clearTable t i s = (u, x)) : clearRecord t i s = (u, x) := by
  rw [clearRecord, if_neg (by simp [index]), if_neg (by simp [mode]), cleared]

theorem clearTravel_of_axis (a : AxisId) (s : State) :
    clearTravel a.val s = (setAxis a { getAxis s a with travel := 0 } s, .ok) := by
  have named : axisId a.val = a := Fin.ext (Nat.mod_eq_of_lt a.isLt)
  rw [clearTravel, if_pos (Nat.le_of_lt_succ a.isLt), named]
  rfl

theorem clearTravel_of_none {n : Nat} (h : 4 ≤ n) (s : State) : clearTravel n s = (s, .range) :=
  if_neg (by omega)

end

/-! ## Written and read back (R166, R169) -/

section
variable {t i : Nat} {bs : List Byte} {s u : State}

/-- The tables whose records read back byte for byte. -/
theorem readBack_of_valid (low : t ≤ 8) (rule : t ≠ 2) (axis : t ≠ 3) (program : t ≠ 6)
    (length : bs.length = recordLength t) (valid : byteAt bs 0 = 1) (h : writeTable t i bs s = (u, .ok)) :
    readBack u t i = bs := by
  have yes : readYesNo (byteAt bs 0) = some true := by rw [valid]; rfl
  refine readBack_of_bytes ?_
  by_cases middle : 1 ≤ t ∧ t ≤ 7
  · rw [writeTable_of_valid middle.1 middle.2 valid] at h
    have which : t = 1 ∨ t = 4 ∨ t = 5 ∨ t = 7 := by omega
    rcases which with rfl | rfl | rfl | rfl
    · exact entryBytes_writeMap length valid h
    · exact entryBytes_writeDoor length valid h
    · exact entryBytes_writeZone length valid h
    · exact entryBytes_writeTemplate length valid h
  · obtain rfl | rfl : t = 0 ∨ t = 8 := by omega
    · obtain ⟨e, read, bytes⟩ := entryBytes_writeStation h
      cases e with
      | none => cases yes.symm.trans (valid_of_readStation read)
      | some e => rw [bytes, Option.map_some, stationBytes_of_read length read]
    · obtain ⟨e, read, bytes⟩ := entryBytes_writeAudioZone h
      cases e with
      | none => cases yes.symm.trans (valid_of_readAudioZone read)
      | some e => rw [bytes, Option.map_some, audioZoneBytes_of_read length read]

theorem readBack_of_invalid (low : t ≤ 8) (invalid : byteAt bs 0 = 0) (h : writeTable t i bs s = (u, .ok)) :
    readBack u t i = List.replicate (recordLength t) 0 := by
  have no : readYesNo (byteAt bs 0) = some false := by rw [invalid]; rfl
  refine readBack_of_absent ?_
  by_cases middle : 1 ≤ t ∧ t ≤ 7
  · rw [writeTable_of_invalid middle.1 middle.2 invalid] at h
    exact entryBytes_clear h low
  · obtain rfl | rfl : t = 0 ∨ t = 8 := by omega
    · obtain ⟨e, read, bytes⟩ := entryBytes_writeStation h
      cases e with
      | none => exact bytes
      | some e => cases no.symm.trans (valid_of_readStation read)
    · obtain ⟨e, read, bytes⟩ := entryBytes_writeAudioZone h
      cases e with
      | none => exact bytes
      | some e => cases no.symm.trans (valid_of_readAudioZone read)

theorem readRule_readBack (length : bs.length = 50) (valid : byteAt bs 0 = 1)
    (h : writeTable 2 i bs s = (u, .ok)) :
    readRule bs ≠ none ∧ readRule (readBack u 2 i) = readRule bs := by
  rw [writeTable_of_valid (by decide) (by decide) valid] at h
  obtain ⟨r, read, bytes⟩ := entryBytes_writeRule h
  rw [readBack_of_bytes bytes, read]
  exact ⟨Option.some_ne_none r, readRule_ruleBytes length valid read⟩

theorem readAxis_readBack (length : bs.length = 49) (valid : byteAt bs 0 = 1)
    (h : writeTable 3 i bs s = (u, .ok)) :
    readAxis i bs ≠ none ∧ readAxis i (readBack u 3 i) = readAxis i bs := by
  rw [writeTable_of_valid (by decide) (by decide) valid] at h
  obtain ⟨c, read, bytes⟩ := entryBytes_writeAxis h
  rw [readBack_of_bytes bytes, read]
  exact ⟨Option.some_ne_none c, readAxis_axisBytes length valid read⟩

theorem readProgram_readBack (length : bs.length = 162) (valid : byteAt bs 0 = 1)
    (h : writeTable 6 i bs s = (u, .ok)) :
    readProgram bs ≠ none ∧ readProgram (readBack u 6 i) = readProgram bs := by
  rw [writeTable_of_valid (by decide) (by decide) valid] at h
  obtain ⟨p, read, bytes⟩ := entryBytes_writeProgram h
  rw [readBack_of_bytes bytes, read]
  exact ⟨Option.some_ne_none p, readProgram_programBytes length read⟩

/-- R166: what a cleared entry reads back as. -/
theorem readBack_of_clear (index : indexOk t i = true) (h : clearTable t i s = (u, .ok)) :
    readBack u t i = if t = 9 then [0] else if t = 10 then [1, 1, 10, 16, 7, 208]
      else List.replicate (recordLength t) 0 := by
  have top := indexOk_le index
  by_cases low : t ≤ 8
  · rw [if_neg (by omega), if_neg (by omega), readBack_of_absent (entryBytes_clear h low)]
  · obtain rfl | rfl : t = 9 ∨ t = 10 := by omega
    · obtain rfl : putResponse i .goOn s = u := congrArg Prod.fst h
      have within : i ≤ 7 := of_decide_eq_true index
      refine readBack_of_bytes ?_
      rw [entryBytes, responses_putResponse s within]
      rfl
    · obtain rfl : { s with settings := {} } = u := congrArg Prod.fst h
      exact (readBack_of_bytes (bs := settingsBytes {}) rfl).trans (by decide)

end

/-! ## The old target of a Point Map entry (R26) -/

/-- One point set to its power-on form: it alone reads so, with one change event if that changes it. -/
theorem setImage_cleared (m : Nat) (s : State) :
    (∀ k, getPoint (setImage (putPoint s.points m {}) [m] s) k = if k = m then {} else getPoint s k) ∧
    (setImage (putPoint s.points m {}) [m] s).events =
      if (getPoint s m).quality = .never ∧ (getPoint s m).value = 0 then s.events else s.events ++ [[m]] := by
  have read (k : Nat) : getPoint (setImage (putPoint s.points m {}) [m] s) k = if k = m then {} else getPoint s k :=
    (getPoint_setImage _ _ s k).trans (getD_putPoint s.points m k {})
  refine ⟨read, ?_⟩
  have differs : m ∈ changedPoints s.points (putPoint s.points m {}) [m] ↔
      ¬((getPoint s m).quality = .never ∧ (getPoint s m).value = 0) := by
    rw [mem_changedPoints, Differs, read m, if_pos rfl, and_iff_right (List.mem_singleton_self m),
      not_and_or, or_comm, ne_comm (a := ({} : Point).quality), ne_comm (a := ({} : Point).value)]
  split_ifs with same
  · have none : changedPoints s.points (putPoint s.points m {}) [m] = [] :=
      List.filter_eq_nil_iff.2 fun n hn changed => by
        obtain rfl := List.mem_singleton.1 hn
        exact differs.1 (List.mem_filter.2 ⟨hn, changed⟩) same
    rw [setImage_of_unchanged _ _ s none]
  · have one : changedPoints s.points (putPoint s.points m {}) [m] = [m] :=
      List.filter_eq_self.2 fun n hn => by
        obtain rfl := List.mem_singleton.1 hn
        exact (List.mem_filter.1 (differs.2 same)).2
    rw [setImage_of_changed _ _ s (by rw [one]; exact List.cons_ne_nil m []), one]
    rfl

theorem putMapEntry_keeps {n : Nat} {e : Option MapEntry} {s : State} {k : Nat}
    (h : ∀ m, Tab.get? s.pointMap n = some m → m.point = k → (getPoint s k).quality = .forced) :
    getPoint (putMapEntry n e s) k = getPoint s k := by
  rw [putMapEntry_eq]
  cases hm : Tab.get? s.pointMap n with
  | none => rfl
  | some m =>
    dsimp only
    split
    next => rfl
    next unforced =>
      refine ((setImage_cleared m.point { s with pointMap := Tab.put s.pointMap n e }).1 k).trans (if_neg ?_)
      rintro rfl
      exact unforced (h m hm rfl)

theorem putMapEntry_clears {n : Nat} {e : Option MapEntry} {s : State} {m : MapEntry}
    (hm : Tab.get? s.pointMap n = some m) (unforced : (getPoint s m.point).quality ≠ .forced) :
    putMapEntry n e s = setImage (putPoint s.points m.point {}) [m.point]
      { s with pointMap := Tab.put s.pointMap n e } := by
  rw [putMapEntry_eq, hm]
  exact if_neg unforced

/-! ## O52 -/

/-- Settles O52: a completion is its effect's result by `completed`; records read back by the codec's
lemmas, table by table. -/
theorem requestAtTheHeadCompletes : Obligations.RequestAtTheHeadCompletes := by
  unfold Obligations.RequestAtTheHeadCompletes
  refine ⟨?completion, ?written, ?cleared, ?station, ?mapEntry, ?rule⟩
  case completion =>
    intro r rest s head
    refine ⟨?_, ?_, ?_, ?_, ?_, ?_, ?_, ?_, ?_, ?_, ?_⟩
    · intro t i bs u x body last index mode length written
      exact exec_writeEntry head body
        ((writePart_whole last).trans (writeRecord_of_written index mode length written))
    · intro t i bs body last
      refine ⟨fun index => ?_, fun index mode => ?_, fun index mode length => ?_⟩ <;>
        refine exec_writeEntry head body ((writePart_whole last).trans ?_)
      · exact writeRecord_of_index index
      · exact writeRecord_of_mode index mode
      · exact writeRecord_of_length index mode length
    · exact fun t i bs body first index => exec_writeEntry head body (writePart_first first index)
    · intro t i part bs g body later staged table index next
      have found : stagingMatches s.staging t i part = some g := by
        rw [staged, stagingMatches_eq table index next]
      refine ⟨fun continues fits => ?_, fun continues long => ?_, fun u x last ok mode length written => ?_,
        fun last ok mode length => ?_⟩ <;> refine exec_writeEntry head body ?_
      · exact writePart_appended later found continues fits
      · exact writePart_tooLong later found continues long
      · exact (writePart_last later found last).trans (writeRecord_of_written ok mode length written)
      · exact (writePart_last later found last).trans (writeRecord_of_length ok mode length)
    · exact fun t i part bs body later other =>
        exec_writeEntry head body (writePart_unmatched later (stagingMatches_none other))
    · exact fun t i u x body index mode cleared =>
        exec_clearEntry head body (clearRecord_of_cleared index mode cleared)
    · intro t i part body
      exact congrArg _ (completeRead_eq head (by rw [body]; rfl))
    · intro first count body
      exact congrArg _ (completeRead_eq head (by rw [body]; rfl))
    · intro n body
      exact congrArg _ (completeRead_eq head (by rw [body]; rfl))
    · exact fun a body => exec_clearTravel head body (clearTravel_of_axis a s)
    · exact fun n body high => exec_clearTravel head body (clearTravel_of_none high s)
  case written =>
    intro t i bs s u index length written
    refine ⟨fun which => ?_, fun low first => ?_, fun low first =>
      readBack_of_invalid low (byteAt_of_head first) written⟩
    · rcases which with rfl | rfl
      · exact readBack_of_bytes (entryBytes_writeResponse (of_decide_eq_true index) length written)
      · exact readBack_of_bytes (entryBytes_writeSettings length written)
    · have valid : byteAt bs 0 = 1 := byteAt_of_head first
      refine ⟨fun rule axis program => readBack_of_valid low rule axis program length valid written,
        fun rule => ?_, fun axis => ?_, fun program => ?_⟩
      · subst rule
        exact readRule_readBack length valid written
      · subst axis
        exact readAxis_readBack length valid written
      · subst program
        exact readProgram_readBack length valid written
  case cleared => exact fun t i s u index cleared => readBack_of_clear index cleared
  case station =>
    intro n e s u hu
    rw [hu]
    exact ⟨(getStation_putStationEntry n s e n).trans (if_pos rfl),
      fun k hk => (getStation_putStationEntry n s e k).trans (if_neg hk)⟩
  case mapEntry =>
    intro n e s u hu
    rw [hu]
    refine ⟨fun k h => putMapEntry_keeps h, fun m hm unforced => ?_⟩
    obtain ⟨read, events⟩ := setImage_cleared m.point { s with pointMap := Tab.put s.pointMap n e }
    rw [putMapEntry_clears hm unforced]
    exact ⟨(read m.point).trans (if_pos rfl), events⟩
  case rule =>
    intro n e s
    cases e <;> rfl

end Sys2Proof.Machine
